-- ==== Sys2Proof/Word.lean ====
section
/-! DEFINITION. The value types of the block: bytes, the 32-bit word of the register interface, and byte arrays
of a fixed length (`00_scope.md` rules R10, R11, R13). -/

namespace Sys2Proof

/-- A byte: a value of 8 bits (rule R11). -/
abbrev Byte := BitVec 8

/-- A word of the host's register interface and of the digest: 32 bits (rules R9, R151). -/
abbrev Word := BitVec 32

/-- A register declared as a byte array of `n` bytes; element 0 is first on the wire (rules R13, R23). -/
abbrev Bytes (n : Nat) := Vector Byte n

end Sys2Proof
end

