-- ==== Sys2Proof/Syntax.lean ====
section
/-! DEFINITION. The commands of "BLWC command set, version 1", one constructor for each row of
`spec/opcode_table.json`, and the raw fields of a command word (`30_encoding.md` rules R75, R77). -/

namespace Sys2Proof

/-- The fifteen commands (rule R77). The only operand a command word carries is `T`, the timestamp request of the two
NetAddress commands (rule R76); every other operand is a named register, DBUF or a stream. -/
inductive Instr where
  /-- NOP, word 0x00. -/
  | nop
  /-- VARINT.ENC, word 0x10. -/
  | varintEnc
  /-- VARINT.DEC, word 0x20. -/
  | varintDec
  /-- VARSTR.ENC, word 0x30. -/
  | varstrEnc
  /-- VARSTR.DEC, word 0x40. -/
  | varstrDec
  /-- NETADDR.ENC, word 0x50, and NETADDR.ENC.T, word 0x51. -/
  | netaddrEnc (t : Bool)
  /-- NETADDR.DEC, word 0x60, and NETADDR.DEC.T, word 0x61. -/
  | netaddrDec (t : Bool)
  /-- CKSUM.GEN, word 0x70. -/
  | cksumGen
  /-- CKSUM.VFY, word 0x80. -/
  | cksumVfy
  /-- HDR.BUILD, word 0x90. -/
  | hdrBuild
  /-- HDR.ENC, word 0xA0. -/
  | hdrEnc
  /-- HDR.DEC, word 0xB0. -/
  | hdrDec
  /-- BODY.RD, word 0xC0. -/
  | bodyRd
  /-- BODY.WR, word 0xD0. -/
  | bodyWr
  /-- CLRERR, word 0xE0. -/
  | clrerr
  deriving DecidableEq, Repr

/-- The fields of the one command format, CMD8 (rule R75): OP in bits 7:4, RSV in bits 3:1, T in bit 0. -/
structure CmdWord where
  op  : BitVec 4
  rsv : BitVec 3
  t   : Bool
  deriving DecidableEq, Repr

end Sys2Proof
end

