-- ==== Sys2Proof/WellFormed.lean ====
section
/-! DEFINITION. The checks on raw input: which command words are legal (`30_encoding.md` rule R78) and which host bus
accesses the spec gives a meaning (`20_memory.md` rule R61). A term of `Instr` itself cannot be ill formed: its only
operand is one bit, and it is a `Bool`. -/

namespace Sys2Proof

/-- OP names one of the fifteen operations: OP = 0xF is reserved (rule R78). -/
def CmdWord.opAssigned (w : CmdWord) : Bool :=
  w.op != 0xF

/-- The reserved bits 3:1 are zero (rules R75, R78). -/
def CmdWord.reservedZero (w : CmdWord) : Bool :=
  w.rsv == 0

/-- T = 1 stands only with OP = 0x5 or OP = 0x6, the NetAddress operations (rule R78). -/
def CmdWord.flagAllowed (w : CmdWord) : Bool :=
  !w.t || w.op == 0x5 || w.op == 0x6

/-- A command word is legal when none of the three conditions of rule R78 makes it illegal. -/
def CmdWord.legal (w : CmdWord) : Bool :=
  w.opAssigned && w.reservedZero && w.flagAllowed

/-- A host bus access is within the spec when it is 4 bytes wide (rule R61). -/
def busWidthOk (width : Nat) : Bool :=
  width == 4

/-- A host bus access is within the spec when its offset is a multiple of 4 (rule R61). -/
def busOffsetOk (offset : Nat) : Bool :=
  offset % 4 == 0

/-- The spec gives the access a meaning; another "is outside this spec … and a model refuses it" (rule R61). -/
def busAccessOk (width offset : Nat) : Bool :=
  busWidthOk width && busOffsetOk offset

end Sys2Proof
end

