-- ==== Sys2Proof/Decode.lean ====
section
/-! DEFINITION. Command words to commands and back (`30_encoding.md` rules R75, R77, R78): a decoder that is total on
bytes and rejects by name, and an encoder written from the same operation map. -/

namespace Sys2Proof

/-- Why a byte is no command word: the three conditions of rule R78, and a sequence that is not one byte long (rule
R80). The machine itself reports all of the first three as CMD_ILLEGAL (rule R212). -/
inductive Reject where
  /-- OP = 0xF. -/
  | reservedOp
  /-- RSV is not 000. -/
  | reservedBits
  /-- T = 1 with an operation that is not a NetAddress operation. -/
  | strayFlag
  /-- Not exactly one byte. -/
  | wrongLength
  deriving DecidableEq, Repr

/-- The fields of a command word (rule R75). -/
def CmdWord.ofByte (b : Byte) : CmdWord where
  op := b.extractLsb' 4 4
  rsv := b.extractLsb' 1 3
  t := b.getLsbD 0

/-- The command word with these fields (rule R75). -/
def CmdWord.toByte (w : CmdWord) : Byte :=
  w.op ++ w.rsv ++ BitVec.ofBool w.t

/-- The operation map of rule R77, from OP and T to the command; OP = 0xF names none. -/
def Instr.ofOp (op : BitVec 4) (t : Bool) : Option Instr :=
  match op.toNat with
  | 0x0 => some .nop
  | 0x1 => some .varintEnc
  | 0x2 => some .varintDec
  | 0x3 => some .varstrEnc
  | 0x4 => some .varstrDec
  | 0x5 => some (.netaddrEnc t)
  | 0x6 => some (.netaddrDec t)
  | 0x7 => some .cksumGen
  | 0x8 => some .cksumVfy
  | 0x9 => some .hdrBuild
  | 0xA => some .hdrEnc
  | 0xB => some .hdrDec
  | 0xC => some .bodyRd
  | 0xD => some .bodyWr
  | 0xE => some .clrerr
  | _ => none

/-- The command a word stands for, or the condition of rule R78 that makes it illegal. -/
def decode (b : Byte) : Except Reject Instr :=
  let w := CmdWord.ofByte b
  match Instr.ofOp w.op w.t with
  | none => .error .reservedOp
  | some i =>
    if !w.reservedZero then .error .reservedBits
    else if !w.flagAllowed then .error .strayFlag
    else .ok i

/-- Decoding a byte sequence: a command word is exactly one byte (rule R80). -/
def decodeBytes (bs : List Byte) : Except Reject Instr :=
  match bs with
  | [b] => decode b
  | _ => .error .wrongLength

/-- The fields of a command's word, from the operation map of rule R77. -/
def Instr.fields (i : Instr) : CmdWord :=
  match i with
  | .nop => ⟨0x0, 0, false⟩
  | .varintEnc => ⟨0x1, 0, false⟩
  | .varintDec => ⟨0x2, 0, false⟩
  | .varstrEnc => ⟨0x3, 0, false⟩
  | .varstrDec => ⟨0x4, 0, false⟩
  | .netaddrEnc t => ⟨0x5, 0, t⟩
  | .netaddrDec t => ⟨0x6, 0, t⟩
  | .cksumGen => ⟨0x7, 0, false⟩
  | .cksumVfy => ⟨0x8, 0, false⟩
  | .hdrBuild => ⟨0x9, 0, false⟩
  | .hdrEnc => ⟨0xA, 0, false⟩
  | .hdrDec => ⟨0xB, 0, false⟩
  | .bodyRd => ⟨0xC, 0, false⟩
  | .bodyWr => ⟨0xD, 0, false⟩
  | .clrerr => ⟨0xE, 0, false⟩

/-- The command word of a command. -/
def encode (i : Instr) : Byte :=
  i.fields.toByte

/-- The bytes of a word of `n` bytes, lowest bits first. -/
def wordBytes : Nat → Nat → List Byte
  | 0, _ => []
  | n + 1, w => BitVec.ofNat 8 w :: wordBytes n (w / 256)

/-- The command the decoder reads from a row of `spec/opcode_table.json`: `w` numbers the word's bits as the table
does, and `nbits` is the row's length. A command is one byte, so a longer word is refused. -/
def decodeTableWord (nbits w : Nat) : Option Instr :=
  match decodeBytes (wordBytes (max 1 (nbits / 8)) w) with
  | .ok i => some i
  | .error _ => none

end Sys2Proof
end

