-- ==== Sys2Proof/Config.lean ====
section
/-! DEFINITION. What is fixed for the machine and never changes while it runs: the constants of `00_scope.md` rule R7,
and the free bytes that stand for every value the spec calls unspecified (`93_implementation_defined.md` U1 to U3) or
leaves unstated (log entry 20). -/

namespace Sys2Proof.Config

/-- MAX_PAYLOAD, 32 MiB: the inclusive bound of a header size and of a varstring length (rule R7). -/
abbrev maxPayload : Nat := 33554432

/-- DBUF_CAP: the number of bytes of DBUF, addresses 0 to `dbufCap - 1` (rules R9, R35). -/
abbrev dbufCap : Nat := 33554432

/-- HDR_LEN: bytes of a message header (rule R7). -/
abbrev hdrLen : Nat := 24

/-- MAGIC_LEN (rule R7). -/
abbrev magicLen : Nat := 4

/-- CMD_LEN_MAX: bytes of the header's command field (rule R7). -/
abbrev cmdLenMax : Nat := 12

/-- SIZE_LEN (rule R7). -/
abbrev sizeLen : Nat := 4

/-- CKSUM_LEN (rule R7). -/
abbrev cksumLen : Nat := 4

/-- IP_LEN (rule R7). -/
abbrev ipLen : Nat := 16

/-- SERVICES_LEN (rule R7). -/
abbrev servicesLen : Nat := 8

/-- PORT_LEN (rule R7). -/
abbrev portLen : Nat := 2

/-- HASH_LEN: bytes of one digest output (rule R7). -/
abbrev hashLen : Nat := 32

/-- TS_LEN: bytes of a NetAddress timestamp (rules R9, R131). -/
abbrev tsLen : Nat := 4

/-- Constants of the excluded software, recorded so that they are not lost (rule R8): no definition of the model uses
them. -/
abbrev maxUserAgent : Nat := 256

/-- See `maxUserAgent` (rule R8). -/
abbrev maxInventory : Nat := 50000

/-- See `maxUserAgent` (rule R8). -/
abbrev nonceCacheCap : Nat := 50

/-- The free bytes: `freeByte d a` is the byte that draw number `d` gives for address `a`. It has no body, so no proof
can rest on a value of it: a statement that mentions it holds whatever the bytes are. Every byte the spec calls
unspecified is one of these (rules R17, R37; `93_implementation_defined.md` U1, U2, U3), and so is what a read of RXDATA
returns, which no rule states (log entry 20). -/
opaque freeByte : Nat → Nat → Byte

end Sys2Proof.Config
end

