-- ==== Sys2Proof/Machine/State.lean ====
section
/-! DEFINITION. The state of the block, as `10_state.md` rule R45 lists it, the actions of the host (rule R46), the
reasons a step can stop, and the state after reset (`70_reset_and_hazards.md` rule R240). Plain data throughout. -/

namespace Sys2Proof.Machine

open Sys2Proof

/-- DBUF as a list of written bytes: strictly rising addresses, each below DBUF_CAP (rules R35, R37). An address that
is not listed has not been written since reset; what a read gives there is `State.dbufByte`'s matter. -/
abbrev Memory := List Host.Cell

/-- The canonical form of a memory: addresses strictly rising and inside DBUF. An unlisted address holds no value, so no
listed byte can equal it. -/
abbrev Memory.wf (m : Memory) : Prop :=
  m.Pairwise (fun x y => x.1 < y.1) ∧ ∀ c ∈ m, c.1 < Config.dbufCap

/-- The registers that the host can read by name (`10_state.md` rules R28, R45, R46). -/
inductive RegName where
  | status | magic | pver | tsver | val | naTime | naSvc | naIp | naPort
  | hMagic | hCmd | hSize | hCksum | cmdLen | ck | dlen | daddr
  deriving DecidableEq, Repr

/-- A register's name together with a value of its width (`10_state.md` rule R45). -/
inductive RegValue where
  | status (v : Word)
  | magic (v : Bytes 4)
  | pver (v : Word)
  | tsver (v : Word)
  | val (v : BitVec 64)
  | naTime (v : Word)
  | naSvc (v : BitVec 64)
  | naIp (v : Bytes 16)
  | naPort (v : BitVec 16)
  | hMagic (v : Bytes 4)
  | hCmd (v : Bytes 12)
  | hSize (v : Word)
  | hCksum (v : Bytes 4)
  | cmdLen (v : BitVec 4)
  | ck (v : Bytes 4)
  | dlen (v : BitVec 26)
  | daddr (v : BitVec 25)
  deriving DecidableEq, Repr

/-- What a host read returned: a 32-bit word of the bus, or a named register's value. -/
inductive HostData where
  | word (w : Word)
  | reg (v : RegValue)
  deriving DecidableEq, Repr

/-- The host's actions, each one atomic step (`10_state.md` rule R46), and its accesses to the register map
(`20_memory.md` rule R62), where most of them are reads or writes at an offset. -/
inductive HostAction where
  /-- WriteReg(name, v). -/
  | writeReg (v : RegValue)
  /-- ReadReg(name). -/
  | readReg (r : RegName)
  /-- DbufWrite: a write of DDATA. -/
  | dbufWrite (b : Byte)
  /-- DbufRead: a read of DDATA. -/
  | dbufRead
  /-- RxPush(b): a write of RXDATA. -/
  | rxPush (b : Byte)
  /-- RxEof: a write of 1 to bit 0 of RXCTL. -/
  | rxEof
  /-- TxPop: a read of TXDATA. -/
  | txPop
  /-- Issue(w): a write of CMD. -/
  | issue (w : Word)
  /-- Reset, driven by the platform (rules R240, R241). -/
  | reset
  /-- A write of `width` bytes at a byte offset from the block's base (rules R61, R62). -/
  | busWrite (width offset : Nat) (v : Word)
  /-- A read of `width` bytes at a byte offset from the block's base (rules R61, R62). -/
  | busRead (width offset : Nat)
  deriving DecidableEq, Repr

/-- Who moves in a step: the engine or, with one of its actions, the host (`10_state.md` rule R20). -/
inductive Turn where
  | engine
  | host (a : HostAction)
  deriving DecidableEq, Repr

/-- The state of the block. The last four fields are the model's own. -/
structure State where
  /-- CMDL, the latched command word, 8 bits, not readable (rule R42). -/
  cmdl : Byte
  /-- STATUS.BUSY (rule R28). -/
  busy : Bool
  /-- STATUS.ESTICKY (rule R28). -/
  esticky : Bool
  /-- RX.eof, of which STATUS.RXEOF is the copy (rules R28, R38). -/
  rxEof : Bool
  /-- STATUS.DRAINSHORT (rule R28). -/
  drainshort : Bool
  /-- STATUS.NATS (rule R28). -/
  nats : Bool
  /-- STATUS.ERR, 8 bits (rules R28, R211). -/
  err : Byte
  /-- MAGIC, the configured network identifier (rule R31). -/
  magic : Bytes 4
  /-- PVER, the negotiated protocol version (rule R32). -/
  pver : Word
  /-- TSVER, the version that introduced timestamps (rule R33). -/
  tsver : Word
  /-- VAL, the varint value (rule R21). -/
  val : BitVec 64
  /-- NA_TIME (rule R22). -/
  naTime : Word
  /-- NA_SVC (rule R22). -/
  naSvc : BitVec 64
  /-- NA_IP (rule R22). -/
  naIp : Bytes 16
  /-- NA_PORT (rule R22). -/
  naPort : BitVec 16
  /-- H_MAGIC (rule R23). -/
  hMagic : Bytes 4
  /-- H_CMD (rule R23). -/
  hCmd : Bytes 12
  /-- H_SIZE (rule R23). -/
  hSize : Word
  /-- H_CKSUM (rule R23). -/
  hCksum : Bytes 4
  /-- CMD_LEN (rule R24). -/
  cmdLen : BitVec 4
  /-- CK, the last checksum computed (rule R25). -/
  ck : Bytes 4
  /-- DLEN, the number of valid bytes of DBUF (rule R35). -/
  dlen : BitVec 26
  /-- DADDR, the address of the host's window into DBUF (rule R36). -/
  daddr : BitVec 25
  /-- DBUF (rule R35). -/
  dbuf : Memory
  /-- RX.q, oldest byte first (rule R38). -/
  rxq : List Byte
  /-- TX.q, oldest byte first (rule R39). -/
  txq : List Byte
  /-- MODEL'S OWN: the schedule of turns still to come (rule R43); with none left the engine moves. -/
  script : List Turn
  /-- MODEL'S OWN: what the host's last read returned. -/
  hostData : HostData
  /-- MODEL'S OWN: the draw of free bytes that DBUF holds where nothing has been written since reset (U1). -/
  epoch : Nat
  /-- MODEL'S OWN: the number of the next draw of free bytes (U2, U3, a read of RXDATA, and U1 after a further reset). -/
  nextDraw : Nat
  deriving DecidableEq, Repr

/-- Why the machine stops with a fault. The block itself never does: "No error stops the engine" (`60_exceptions.md`
rule R220). -/
inductive Fault where
  /-- Raised by every command that reads `DBUF[0..DLEN)` when DLEN is above DBUF_CAP, that is, when the command would
  read an address that does not exist (`00_scope.md` rule R14). No run reaches such a state: DLEN <= 33554432 "at all
  times" (`10_state.md` rule R35). Safe. -/
  | dbufOutOfRange
  deriving DecidableEq, Repr

/-- Why the model gives a step no meaning. -/
inductive Refusal where
  /-- An instruction that has no meaning yet. Raised by no arm of `exec`. Safe. -/
  | notModelled (mnemonic : String)
  /-- Raised by a host bus access that is not 4 bytes wide or not at a multiple of 4: "outside this spec … and a model
  refuses it" (`20_memory.md` rule R61). Safe. -/
  | busAccessOutsideSpec
  deriving DecidableEq, Repr

/-- The state after reset (`10_state.md` rule R45, `70_reset_and_hazards.md` rule R240). DBUF lists nothing: its contents
are unspecified. -/
def State.reset : State where
  cmdl := 0x00
  busy := false
  esticky := false
  rxEof := false
  drainshort := false
  nats := false
  err := 0x00
  magic := Vector.replicate 4 0
  pver := 0
  tsver := 0
  val := 0
  naTime := 0
  naSvc := 0
  naIp := Vector.replicate 16 0
  naPort := 0
  hMagic := Vector.replicate 4 0
  hCmd := Vector.replicate 12 0
  hSize := 0
  hCksum := Vector.replicate 4 0
  cmdLen := 0
  ck := Vector.replicate 4 0
  dlen := 0
  daddr := 0
  dbuf := []
  rxq := []
  txq := []
  script := []
  hostData := .word 0
  epoch := 0
  nextDraw := 1

end Sys2Proof.Machine
end

