-- ==== Sys2Proof/Machine/Flags.lean ====
section
/-! DEFINITION. The result codes (`60_exceptions.md` rule R211), which of them set the sticky flag (rule R216), and the
STATUS word that the host reads (`10_state.md` rule R28). The block has no arithmetic condition codes (rule R29). -/

namespace Sys2Proof.Machine

open Sys2Proof

/-- The result codes of a command (rule R211). -/
inductive ErrCode where
  | ok
  | frameWrongNetwork
  | framePayloadTooLarge
  | frameInvalidCommand
  | frameChecksumMismatch
  | protoNoncanonicalVarint
  | protoVarstringTooLong
  /-- Reserved and never raised (`42_netaddress.md` rule R138). -/
  | protoMalformedAddress
  | ioShortRead
  | ioEof
  | cmdIllegal
  | cmdBadOperand
  deriving DecidableEq, Repr

/-- The number of a result code: category in bits 7:4, cause in bits 3:0 (rule R211). -/
def ErrCode.code : ErrCode → Byte
  | .ok => 0x00
  | .frameWrongNetwork => 0x11
  | .framePayloadTooLarge => 0x12
  | .frameInvalidCommand => 0x13
  | .frameChecksumMismatch => 0x14
  | .protoNoncanonicalVarint => 0x21
  | .protoVarstringTooLong => 0x22
  | .protoMalformedAddress => 0x23
  | .ioShortRead => 0x31
  | .ioEof => 0x32
  | .cmdIllegal => 0xF1
  | .cmdBadOperand => 0xF2

/-- A completion with this code sets ESTICKY: every code but OK and IO_EOF (rule R216). -/
def ErrCode.setsSticky (c : ErrCode) : Bool :=
  c.code != 0x00 && c.code != 0x32

/-- STATUS as the host reads it: BUSY, ESTICKY, RXEOF, DRAINSHORT, NATS in bits 0 to 4, ERR in bits 15:8, the reserved
bits 0 (rule R28). -/
def statusWord (s : State) : Word :=
  0#16 ++ s.err ++ 0#3 ++ BitVec.ofBool s.nats ++ BitVec.ofBool s.drainshort ++ BitVec.ofBool s.rxEof
    ++ BitVec.ofBool s.esticky ++ BitVec.ofBool s.busy

end Sys2Proof.Machine
end

