-- ==== Sys2Proof/Machine/Operands.lean ====
section
/-! DEFINITION. How operands are assembled from bytes and laid out as bytes (`00_scope.md` rules R11, R12), the outcomes
of a decoding function (rule R15), the read primitives (`20_memory.md` rules R55, R56), and the operand tests of the
NetAddress and header units. -/

namespace Sys2Proof.Machine

open Sys2Proof

/-- `le(s)`: the number whose byte `i`, counted from the least significant, is `s[i]` (rule R12). -/
def le : List Byte → Nat
  | [] => 0
  | b :: bs => b.toNat + 256 * le bs

/-- `LE_n(v)`: the `n` bytes of `v`, least significant first (rule R12). -/
def leBytes : Nat → Nat → List Byte
  | 0, _ => []
  | n + 1, v => BitVec.ofNat 8 v :: leBytes n (v / 256)

/-- `be(s)` (rule R12). -/
def be (s : List Byte) : Nat :=
  le s.reverse

/-- `BE_n(v)`: the `n` bytes of `v`, most significant first (rule R12). -/
def beBytes (n v : Nat) : List Byte :=
  (leBytes n v).reverse

/-- The slice `s[i..j)` (rule R11). -/
def slice (s : List Byte) (i j : Nat) : List Byte :=
  (s.drop i).take (j - i)

/-- The byte array of `n` bytes that begins with `s`: a longer sequence is cut, and a shorter one is filled with zeros on
the right, the padding of `30_encoding.md` rule R86. -/
def bytesOf (n : Nat) (s : List Byte) : Bytes n :=
  ⟨(s.take n ++ List.replicate (n - s.length) 0).toArray, by simp; omega⟩

/-- The 32-bit word view of four bytes: byte `k` is bits `8k+7:8k` (`10_state.md` rule R26). -/
def leWord (s : List Byte) : Word :=
  BitVec.ofNat 32 (le s)

/-- Outcomes of a decoding function (rule R15). -/
inductive DecOut (α : Type) where
  /-- `Ok(r, n)`: result `r`, the first `n` bytes consumed. -/
  | ok (r : α) (n : Nat)
  /-- `Err(c, n)`: error `c`, the first `n` bytes consumed. -/
  | err (c : ErrCode) (n : Nat)
  /-- `Short`: the input ended before the outcome could be decided. -/
  | short
  deriving DecidableEq, Repr

/-- `GetBytes(s, n)` (rule R55). -/
def getBytes (s : List Byte) (n : Nat) : DecOut (List Byte) :=
  if n ≤ s.length then .ok (s.take n) n else .short

/-- `GetLE(s, n)` (rule R56). -/
def getLE (s : List Byte) (n : Nat) : DecOut Nat :=
  if n ≤ s.length then .ok (le (s.take n)) n else .short

/-- `GetBE(s, n)` (rule R56). -/
def getBE (s : List Byte) (n : Nat) : DecOut Nat :=
  if n ≤ s.length then .ok (be (s.take n)) n else .short

/-- `has_ts`: a timestamp is present when the command asks for it and the negotiated version, as an unsigned number, is
at or above the threshold (`42_netaddress.md` rule R130). -/
def hasTs (t : Bool) (pver tsver : Word) : Bool :=
  t && decide (tsver.toNat ≤ pver.toNat)

/-- `strip_zeros(c)`: `c` without its trailing zero bytes (`44_header.md` rule R176). -/
def stripZeros (c : List Byte) : List Byte :=
  (c.reverse.dropWhile (· == 0)).reverse

/-- `ValidText(t)`: every byte in 0x01 to 0x7F (`44_header.md` rule R178). -/
def validText (t : List Byte) : Bool :=
  t.all fun b => decide (0x01 ≤ b.toNat) && decide (b.toNat ≤ 0x7F)

end Sys2Proof.Machine
end

