-- ==== Sys2Proof/Machine/Ops.lean ====
section
/-! DEFINITION. The named operations the meanings share: DBUF and the streams (`00_scope.md` rule R14, `20_memory.md`
rules R51 to R53), the draw of unspecified bytes, and the completion of a command with a result code
(`60_exceptions.md` rule R216), which is the whole of taking an error on this block. -/

namespace Sys2Proof.Machine

open Sys2Proof Host

/-! ### DBUF -/

/-- The bytes `bs` as cells at addresses `a`, `a + 1`, and so on. -/
def cellsAt : Nat → List Byte → Memory
  | _, [] => []
  | a, b :: bs => (a, b) :: cellsAt (a + 1) bs

/-- The memory with the bytes `bs` at addresses `a` to `a + len(bs) - 1` and every other address as before. -/
def Memory.put (m : Memory) (a : Nat) (bs : List Byte) : Memory :=
  m.filter (fun c => decide (c.1 < a)) ++ cellsAt a bs ++ m.filter (fun c => decide (a + bs.length ≤ c.1))

/-- `DBUF[a]`. A byte that nothing has written since reset is unspecified, and the same on every read until it is
written (`10_state.md` rule R37, U1): the free byte of the state's epoch. -/
def State.dbufByte (s : State) (a : Nat) : Byte :=
  (s.dbuf.lookup a).getD (Config.freeByte s.epoch a)

/-- `MemRead(addr, n)` (rule R14). -/
def State.memRead (s : State) (addr n : Nat) : List Byte :=
  (List.range n).map fun i => s.dbufByte (addr + i)

/-- `MemWrite(addr, len(bs), bs)` (rule R14). -/
def State.memWrite (s : State) (addr : Nat) (bs : List Byte) : State :=
  { s with dbuf := s.dbuf.put addr bs }

/-- The draw whose number is next is used up; no element of the block changes. -/
def State.useDraw (s : State) : State :=
  { s with nextDraw := s.nextDraw + 1 }

/-- `DBUF[0..n) <- unspecified`: the bytes of a fresh draw (U2). -/
def State.memUnspecify (s : State) (n : Nat) : State :=
  (s.memWrite 0 ((List.range n).map (Config.freeByte s.nextDraw))).useDraw

/-- Runs `k` on the valid content `DBUF[0..DLEN)`. `MemRead` requires the range to lie inside DBUF (rule R14). -/
def withBody (s : State) (k : List Byte → Outcome State Fault Refusal) : Outcome State Fault Refusal :=
  if s.dlen.toNat ≤ Config.dbufCap then k (s.memRead 0 s.dlen.toNat) else .fault .dbufOutOfRange

/-! ### Streams -/

/-- `RxTake(n)`'s effect on the state (rule R51). -/
def State.rxTake (s : State) (n : Nat) : State :=
  { s with rxq := s.rxq.drop n }

/-- `RX.q <- []` (rule R53). -/
def State.rxClear (s : State) : State :=
  { s with rxq := [] }

/-- `TxPut(bs)` (rule R52). -/
def State.txPut (s : State) (bs : List Byte) : State :=
  { s with txq := s.txq ++ bs }

/-! ### Completion -/

/-- Completion with result code `c`, which is what `raise c` and `ERR <- 0x00` mean: ERR takes the code, ESTICKY is set
by every code but OK and IO_EOF, BUSY falls. Nothing is saved and control goes nowhere (rule R216). -/
def State.complete (s : State) (c : ErrCode) : State :=
  { s with err := c.code, esticky := s.esticky || c.setsSticky, busy := false }

/-- What CLRERR does before it completes: the block's whole return from an error (`60_exceptions.md` rule R219,
`45_body_system.md` rule R206). -/
def State.clearSticky (s : State) : State :=
  { s with esticky := false }

/-- The step that ends a command with code `c`. -/
def finish (s : State) (c : ErrCode) : Outcome State Fault Refusal :=
  .next (s.complete c)

/-- The hold: the completion is not enabled, the engine waits and nothing changes, BUSY among it (rule R53). -/
def hold (s : State) : Outcome State Fault Refusal :=
  .next s

/-- Completion of a command that reads RX, from the outcome of its decoding function on `RX.q` (rule R53). `onOk` writes
the results; `onShort` is what else an end of stream inside the item does to the state, before `RX.q` is emptied. -/
def completeRead {α : Type} (o : DecOut α) (onOk : α → State → State) (onShort : State → State) (s : State) :
    Outcome State Fault Refusal :=
  match o with
  | .ok r n => finish (onOk r (s.rxTake n)) .ok
  | .err c n => finish (s.rxTake n) c
  | .short => if s.rxEof then finish (onShort s).rxClear .ioShortRead else hold s

/-- An end of stream inside a body transfer of `n` bytes: `DLEN <- 0; DBUF[0..n) <- unspecified` (rules R119, R196). -/
def State.bodyLost (s : State) (n : Nat) : State :=
  { s.memUnspecify n with dlen := 0 }

/-- `MemWrite(0, len(b), b); DLEN <- len(b)` (rules R119, R196). -/
def State.bodyStored (s : State) (b : List Byte) : State :=
  { s.memWrite 0 b with dlen := BitVec.ofNat 26 b.length }

end Sys2Proof.Machine
end

