-- ==== Sys2Proof/Machine/Body.lean ====
section
/-! DEFINITION. Payload transfer and the system commands: BODY.RD, BODY.WR, NOP and CLRERR (`45_body_system.md`), and
what an illegal command word does (`60_exceptions.md` rule R212). -/

namespace Sys2Proof.Machine

open Sys2Proof Host

/-- BODY.RD: the bound first, then all H_SIZE bytes or none (rule R196). -/
def execBodyRd (s : State) : Outcome State Fault Refusal :=
  if Config.maxPayload < s.hSize.toNat then finish s .framePayloadTooLarge
  else
    completeRead (getBytes s.rxq s.hSize.toNat) (fun b s => s.bodyStored b) (fun s => s.bodyLost s.hSize.toNat) s

/-- BODY.WR (rule R198). -/
def execBodyWr (s : State) : Outcome State Fault Refusal :=
  withBody s fun b => finish (s.txPut b) .ok

/-- NOP: it overwrites ERR and nothing else (rule R205). -/
def execNop (s : State) : Outcome State Fault Refusal :=
  finish s .ok

/-- CLRERR (rule R206). -/
def execClrerr (s : State) : Outcome State Fault Refusal :=
  finish s.clearSticky .ok

/-- The completion of an illegal command word: CMD_ILLEGAL and no other effect (rule R212). -/
def completeIllegal (s : State) : Outcome State Fault Refusal :=
  finish s .cmdIllegal

end Sys2Proof.Machine
end

