-- ==== Sys2Proof/Machine/Sha256.lean ====
section
/-! DEFINITION. The digest HASH = SHA-256 (`43_checksum.md` rules R145, R151 to R158), and the checksum built on it (rule
R146). -/

namespace Sys2Proof.Machine

open Sys2Proof

/-- `ROTR_n(x)` (rule R151). -/
def rotr (n : Nat) (x : Word) : Word :=
  (x >>> n) ||| (x <<< (32 - n))

/-- `Ch` (rule R152). -/
def shaCh (x y z : Word) : Word := (x &&& y) ^^^ (~~~x &&& z)

/-- `Maj` (rule R152). -/
def shaMaj (x y z : Word) : Word := (x &&& y) ^^^ (x &&& z) ^^^ (y &&& z)

/-- `BSIG0` (rule R152). -/
def bsig0 (x : Word) : Word := rotr 2 x ^^^ rotr 13 x ^^^ rotr 22 x

/-- `BSIG1` (rule R152). -/
def bsig1 (x : Word) : Word := rotr 6 x ^^^ rotr 11 x ^^^ rotr 25 x

/-- `SSIG0` (rule R152). -/
def ssig0 (x : Word) : Word := rotr 7 x ^^^ rotr 18 x ^^^ (x >>> 3)

/-- `SSIG1` (rule R152). -/
def ssig1 (x : Word) : Word := rotr 17 x ^^^ rotr 19 x ^^^ (x >>> 10)

/-- The eight words of a chaining value, or of the working variables `a` to `h` (rule R157). -/
structure ShaState where
  a : Word
  b : Word
  c : Word
  d : Word
  e : Word
  f : Word
  g : Word
  h : Word
  deriving DecidableEq, Repr

/-- The initial hash value (rule R153). -/
def shaInit : ShaState :=
  ⟨0x6A09E667, 0xBB67AE85, 0x3C6EF372, 0xA54FF53A, 0x510E527F, 0x9B05688C, 0x1F83D9AB, 0x5BE0CD19⟩

/-- The sixty-four round constants `K[0]` to `K[63]` (rule R154). -/
def shaK : List Word :=
  [0x428A2F98, 0x71374491, 0xB5C0FBCF, 0xE9B5DBA5, 0x3956C25B, 0x59F111F1, 0x923F82A4, 0xAB1C5ED5,
    0xD807AA98, 0x12835B01, 0x243185BE, 0x550C7DC3, 0x72BE5D74, 0x80DEB1FE, 0x9BDC06A7, 0xC19BF174] ++
  [0xE49B69C1, 0xEFBE4786, 0x0FC19DC6, 0x240CA1CC, 0x2DE92C6F, 0x4A7484AA, 0x5CB0A9DC, 0x76F988DA,
    0x983E5152, 0xA831C66D, 0xB00327C8, 0xBF597FC7, 0xC6E00BF3, 0xD5A79147, 0x06CA6351, 0x14292967] ++
  [0x27B70A85, 0x2E1B2138, 0x4D2C6DFC, 0x53380D13, 0x650A7354, 0x766A0ABB, 0x81C2C92E, 0x92722C85,
    0xA2BFE8A1, 0xA81A664B, 0xC24B8B70, 0xC76C51A3, 0xD192E819, 0xD6990624, 0xF40E3585, 0x106AA070] ++
  [0x19A4C116, 0x1E376C08, 0x2748774C, 0x34B0BCB5, 0x391C0CB3, 0x4ED8AA4A, 0x5B9CCA4F, 0x682E6FF3,
    0x748F82EE, 0x78A5636F, 0x84C87814, 0x8CC70208, 0x90BEFFFA, 0xA4506CEB, 0xBEF9A3F7, 0xC67178F2]

/-- The padded message: 0x80, then `(55 - L) mod 64` zero bytes, then the length in bits (rule R155). -/
def shaPad (m : List Byte) : List Byte :=
  m ++ 0x80 :: List.replicate ((119 - m.length % 64) % 64) 0 ++ beBytes 8 (8 * m.length)

/-- The first `n` words of a byte sequence, each big-endian in four bytes (rule R156). -/
def shaWords : Nat → List Byte → List Word
  | 0, _ => []
  | n + 1, bs => BitVec.ofNat 32 (be (bs.take 4)) :: shaWords n (bs.drop 4)

/-- The message schedule continued by `n` words; `w` holds the words so far, latest first (rule R157). -/
def shaExtend : Nat → List Word → List Word
  | 0, w => w
  | n + 1, w =>
    shaExtend n ((ssig1 (w.getD 1 0) + w.getD 6 0 + ssig0 (w.getD 14 0) + w.getD 15 0) :: w)

/-- The message schedule `W[0]` to `W[63]` of a block (rule R157). -/
def shaSchedule (block : List Byte) : List Word :=
  (shaExtend 48 (shaWords 16 block).reverse).reverse

/-- One iteration of the `t` loop, with `K[t]` and `W[t]` (rule R157). -/
def shaRound (v : ShaState) (kw : Word × Word) : ShaState :=
  let t1 := v.h + bsig1 v.e + shaCh v.e v.f v.g + kw.1 + kw.2
  let t2 := bsig0 v.a + shaMaj v.a v.b v.c
  ⟨t1 + t2, v.a, v.b, v.c, v.d + t1, v.e, v.f, v.g⟩

/-- The compression of one block into the chaining value (rule R157). -/
def shaCompress (h : ShaState) (block : List Byte) : ShaState :=
  let v := (shaK.zip (shaSchedule block)).foldl shaRound h
  ⟨h.a + v.a, h.b + v.b, h.c + v.c, h.d + v.d, h.e + v.e, h.f + v.f, h.g + v.g, h.h + v.h⟩

/-- The compression of `n` blocks of 64 bytes in order (rules R156, R157). -/
def shaBlocks : Nat → List Byte → ShaState → ShaState
  | 0, _, h => h
  | n + 1, bs, h => shaBlocks n (bs.drop 64) (shaCompress h (bs.take 64))

/-- The output: the eight words, each big-endian (rule R158). -/
def shaOutput (h : ShaState) : List Byte :=
  beBytes 4 h.a.toNat ++ beBytes 4 h.b.toNat ++ beBytes 4 h.c.toNat ++ beBytes 4 h.d.toNat
    ++ beBytes 4 h.e.toNat ++ beBytes 4 h.f.toNat ++ beBytes 4 h.g.toNat ++ beBytes 4 h.h.toNat

/-- HASH = SHA-256 (rules R145, R158). -/
def sha256 (m : List Byte) : List Byte :=
  shaOutput (shaBlocks ((shaPad m).length / 64) (shaPad m) shaInit)

/-- `checksum(b)`: the first four bytes of the digest of the digest, in the order the digest produced them (rule R146). -/
def checksum (b : List Byte) : Bytes 4 :=
  bytesOf 4 (sha256 (sha256 b))

end Sys2Proof.Machine
end

