-- ==== Sys2Proof/Machine/Checksum.lean ====
section
/-! DEFINITION. The checksum unit: CKSUM.GEN and CKSUM.VFY (`43_checksum.md`). -/

namespace Sys2Proof.Machine

open Sys2Proof Host

/-- `CK <- c` (`10_state.md` rule R25). -/
def State.setCk (s : State) (c : Bytes 4) : State :=
  { s with ck := c }

/-- CKSUM.GEN (rule R148). -/
def execCksumGen (s : State) : Outcome State Fault Refusal :=
  withBody s fun b => finish (s.setCk (checksum b)) .ok

/-- CKSUM.VFY: CK is written on success and on mismatch alike (rule R149). -/
def execCksumVfy (s : State) : Outcome State Fault Refusal :=
  withBody s fun b =>
    finish (s.setCk (checksum b)) (if checksum b = s.hCksum then .ok else .frameChecksumMismatch)

end Sys2Proof.Machine
end

