-- ==== Sys2Proof/Machine/Header.lean ====
section
/-! DEFINITION. The header framing unit: HDR.BUILD, HDR.ENC and HDR.DEC (`44_header.md`). -/

namespace Sys2Proof.Machine

open Sys2Proof Host

/-- A message header (`30_encoding.md` rule R86). -/
structure Header where
  magic : Bytes 4
  cmd   : Bytes 12
  size  : Word
  cksum : Bytes 4
  deriving DecidableEq, Repr

/-- `hdr_bytes(magic, cmd, size, cksum)` (rule R170). -/
def headerBytes (h : Header) : List Byte :=
  h.magic.toList ++ h.cmd.toList ++ leBytes 4 h.size.toNat ++ h.cksum.toList

/-- Field extraction from the first 24 bytes of a sequence (rule R175). -/
def headerOf (q : List Byte) : Header where
  magic := bytesOf 4 (slice q 0 4)
  cmd := bytesOf 12 (slice q 4 16)
  size := leWord (slice q 16 20)
  cksum := bytesOf 4 (slice q 20 24)

/-- The header that the `H_` registers hold (`10_state.md` rule R23). -/
def State.header (s : State) : Header where
  magic := s.hMagic
  cmd := s.hCmd
  size := s.hSize
  cksum := s.hCksum

/-- Writes the four `H_` registers. -/
def State.setHeader (s : State) (h : Header) : State :=
  { s with hMagic := h.magic, hCmd := h.cmd, hSize := h.size, hCksum := h.cksum }

/-- The command field zero-padded from `n` on; its first `n` bytes unchanged (rule R171). -/
def padCmd (cmd : Bytes 12) (n : Nat) : Bytes 12 :=
  bytesOf 12 (cmd.toList.take n)

/-- The header HDR.BUILD makes for the payload `b` (rule R171). -/
def State.builtHeader (s : State) (b : List Byte) : Header where
  magic := s.magic
  cmd := padCmd s.hCmd s.cmdLen.toNat
  size := s.dlen.setWidth 32
  cksum := checksum b

/-- HDR.BUILD (rule R171). -/
def execHdrBuild (s : State) : Outcome State Fault Refusal :=
  if Config.cmdLenMax < s.cmdLen.toNat then finish s .cmdBadOperand
  else withBody s fun b => finish (s.setHeader (s.builtHeader b)) .ok

/-- HDR.ENC: it validates nothing (rule R173). -/
def execHdrEnc (s : State) : Outcome State Fault Refusal :=
  finish (s.txPut (headerBytes s.header)) .ok

/-- `latch`: the header fields and the length of the stripped command field (rule R181). -/
def State.latch (s : State) (h : Header) : State :=
  { s.setHeader h with cmdLen := BitVec.ofNat 4 (stripZeros h.cmd.toList).length }

/-- `DRAINSHORT <- d` (rule R181). -/
def State.setDrainshort (s : State) (d : Bool) : State :=
  { s with drainshort := d }

/-- Steps 3 and 4 of the parser: the first validation that fails, magic before command text (rule R181). -/
def headerError (magic : Bytes 4) (h : Header) : Option ErrCode :=
  if h.magic ≠ magic then some .frameWrongNetwork
  else if !validText (stripZeros h.cmd.toList) then some .frameInvalidCommand
  else none

/-- The steps of the parser once 24 bytes are there: the size bound before anything sized by it, then the validations,
each with its drain (rules R180, R181). -/
def hdrDecBody (s : State) (h : Header) : Outcome State Fault Refusal :=
  if Config.maxPayload < h.size.toNat then
    finish (((s.rxTake Config.hdrLen).latch h).setDrainshort false) .framePayloadTooLarge
  else
    match headerError s.magic h with
    | none => finish (((s.rxTake Config.hdrLen).latch h).setDrainshort false) .ok
    | some e =>
      if Config.hdrLen + h.size.toNat ≤ s.rxq.length then
        finish (((s.rxTake (Config.hdrLen + h.size.toNat)).latch h).setDrainshort false) e
      else if s.rxEof then finish ((s.rxClear.latch h).setDrainshort true) e
      else hold s

/-- HDR.DEC (rule R181). -/
def execHdrDec (s : State) : Outcome State Fault Refusal :=
  if s.rxq.length < Config.hdrLen then
    if !s.rxEof then hold s
    else if s.rxq.length = 0 then finish (s.setDrainshort false) .ioEof
    else finish (s.rxClear.setDrainshort false) .ioShortRead
  else hdrDecBody s (headerOf s.rxq)

end Sys2Proof.Machine
end

