-- ==== Sys2Proof/Machine/Netaddr.lean ====
section
/-! DEFINITION. The network-address unit: NETADDR.ENC and NETADDR.DEC (`42_netaddress.md`). -/

namespace Sys2Proof.Machine

open Sys2Proof Host

/-- The fields of a NetAddress (`30_encoding.md` rule R85). -/
structure NetAddr where
  time : Word
  svc  : BitVec 64
  ip   : Bytes 16
  port : BitVec 16
  deriving DecidableEq, Repr

/-- `netaddr_enc(has_ts, time, svc, ip, port)`: the port alone is big-endian (rule R132). -/
def netaddrEncode (ts : Bool) (a : NetAddr) : List Byte :=
  (if ts then leBytes 4 a.time.toNat else []) ++ leBytes 8 a.svc.toNat ++ a.ip.toList ++ beBytes 2 a.port.toNat

/-- `netaddr_dec(has_ts, s)` (rule R134). -/
def netaddrDecode (ts : Bool) (s : List Byte) : DecOut NetAddr :=
  let k := if ts then 4 else 0
  if s.length < k + 26 then .short
  else .ok
    { time := if ts then leWord (slice s 0 4) else 0
      svc := BitVec.ofNat 64 (le (slice s k (k + 8)))
      ip := bytesOf 16 (slice s (k + 8) (k + 24))
      port := BitVec.ofNat 16 (be (slice s (k + 24) (k + 26))) } (k + 26)

/-- The NetAddress that the `NA_` registers hold (`10_state.md` rule R22). -/
def State.netAddr (s : State) : NetAddr where
  time := s.naTime
  svc := s.naSvc
  ip := s.naIp
  port := s.naPort

/-- Writes the four `NA_` registers and NATS (rule R135). -/
def State.setNetAddr (s : State) (ts : Bool) (a : NetAddr) : State :=
  { s with naTime := a.time, naSvc := a.svc, naIp := a.ip, naPort := a.port, nats := ts }

/-- NETADDR.ENC (rule R133). -/
def execNetaddrEnc (t : Bool) (s : State) : Outcome State Fault Refusal :=
  finish (s.txPut (netaddrEncode (hasTs t s.pver s.tsver) s.netAddr)) .ok

/-- NETADDR.DEC (rule R135). -/
def execNetaddrDec (t : Bool) (s : State) : Outcome State Fault Refusal :=
  completeRead (netaddrDecode (hasTs t s.pver s.tsver) s.rxq)
    (fun a s' => s'.setNetAddr (hasTs t s.pver s.tsver) a) id s

end Sys2Proof.Machine
end

