-- ==== Sys2Proof/Machine/Varint.lean ====
section
/-! DEFINITION. The varint unit: VARINT.ENC and VARINT.DEC (`40_varint.md`). -/

namespace Sys2Proof.Machine

open Sys2Proof Host

/-- `varint_enc(v)` (rule R100). -/
def varintEncode (v : Nat) : List Byte :=
  if v < 0xFD then [BitVec.ofNat 8 v]
  else if v ≤ 0xFFFF then 0xFD :: leBytes 2 v
  else if v ≤ 0xFFFFFFFF then 0xFE :: leBytes 4 v
  else 0xFF :: leBytes 8 v

/-- The rest of a varint of `n + 1` bytes whose form begins at the value `lo`: an encoding of a smaller value is not
canonical (rule R102). -/
def varintTail (n lo : Nat) (rest : List Byte) : DecOut Nat :=
  if rest.length < n then .short
  else if le (rest.take n) < lo then .err .protoNoncanonicalVarint (n + 1)
  else .ok (le (rest.take n)) (n + 1)

/-- `varint_dec(s)` (rule R102). -/
def varintDecode (s : List Byte) : DecOut Nat :=
  match s with
  | [] => .short
  | d :: rest =>
    if d.toNat < 0xFD then .ok d.toNat 1
    else if d.toNat = 0xFD then varintTail 2 0xFD rest
    else if d.toNat = 0xFE then varintTail 4 0x10000 rest
    else varintTail 8 0x100000000 rest

/-- VARINT.ENC (rule R103). -/
def execVarintEnc (s : State) : Outcome State Fault Refusal :=
  finish (s.txPut (varintEncode s.val.toNat)) .ok

/-- VARINT.DEC (rule R105). -/
def execVarintDec (s : State) : Outcome State Fault Refusal :=
  completeRead (varintDecode s.rxq) (fun v s => { s with val := BitVec.ofNat 64 v }) id s

end Sys2Proof.Machine
end

