-- ==== Sys2Proof/Machine/Varstr.lean ====
section
/-! DEFINITION. The varstring unit: VARSTR.ENC and VARSTR.DEC (`41_varstring.md`). -/

namespace Sys2Proof.Machine

open Sys2Proof Host

/-- `varstr_enc(b)` (rule R115). -/
def varstrEncode (b : List Byte) : List Byte :=
  varintEncode b.length ++ b

/-- `varstr_dec(s)` (rule R116). The bound is tested on the whole length, before anything is sized by it (rule R123). -/
def varstrDecode (s : List Byte) : DecOut (List Byte) :=
  match varintDecode s with
  | .short => .short
  | .err c n => .err c n
  | .ok l n =>
    if Config.maxPayload < l then .err .protoVarstringTooLong n
    else if s.length < n + l then .short
    else .ok ((s.drop n).take l) (n + l)

/-- What an end of stream inside a varstring does besides emptying RX.q: if the prefix was read and its length accepted,
the body is lost; inside the prefix nothing changes (rule R119). -/
def varstrShort (s : State) : State :=
  match varintDecode s.rxq with
  | .ok l _ => if l ≤ Config.maxPayload then s.bodyLost l else s
  | .err _ _ => s
  | .short => s

/-- VARSTR.ENC (rule R117). -/
def execVarstrEnc (s : State) : Outcome State Fault Refusal :=
  withBody s fun b => finish (s.txPut (varintEncode s.dlen.toNat ++ b)) .ok

/-- VARSTR.DEC (rule R119). -/
def execVarstrDec (s : State) : Outcome State Fault Refusal :=
  completeRead (varstrDecode s.rxq) (fun b s => s.bodyStored b) varstrShort s

end Sys2Proof.Machine
end

