-- ==== Sys2Proof/Machine/Dispatch.lean ====
section
/-! DEFINITION. One arm for each command: its completion (`20_memory.md` rule R53). -/

namespace Sys2Proof.Machine

open Sys2Proof Host

def exec (i : Instr) (s : State) : Host.Outcome State Fault Refusal :=
  match i with
  | .nop => Sys2Proof.Machine.execNop s
  | .varintEnc => Sys2Proof.Machine.execVarintEnc s
  | .varintDec => Sys2Proof.Machine.execVarintDec s
  | .varstrEnc => Sys2Proof.Machine.execVarstrEnc s
  | .varstrDec => Sys2Proof.Machine.execVarstrDec s
  | .netaddrEnc t => Sys2Proof.Machine.execNetaddrEnc t s
  | .netaddrDec t => Sys2Proof.Machine.execNetaddrDec t s
  | .cksumGen => Sys2Proof.Machine.execCksumGen s
  | .cksumVfy => Sys2Proof.Machine.execCksumVfy s
  | .hdrBuild => Sys2Proof.Machine.execHdrBuild s
  | .hdrEnc => Sys2Proof.Machine.execHdrEnc s
  | .hdrDec => Sys2Proof.Machine.execHdrDec s
  | .bodyRd => Sys2Proof.Machine.execBodyRd s
  | .bodyWr => Sys2Proof.Machine.execBodyWr s
  | .clrerr => Sys2Proof.Machine.execClrerr s

end Sys2Proof.Machine
end

