-- ==== Sys2Proof/Machine/HostIf.lean ====
section
/-! DEFINITION. The host's side: its actions (`10_state.md` rules R30, R36, R38 to R40, R46, R48), the register map
(`20_memory.md` rule R62), what is ignored while a command runs (`70_reset_and_hazards.md` rule R250), and reset (rules
R240, R241). -/

namespace Sys2Proof.Machine

open Sys2Proof Host

/-- A write that takes effect only while BUSY = 0 and is ignored otherwise (rules R46, R250). -/
def State.whenIdle (s : State) (f : State → State) : State :=
  if s.busy then s else f s

/-- Issue: the word is latched, BUSY rises and nothing else changes; bits 31:8 are ignored (rules R30, R48). -/
def State.issue (s : State) (w : Word) : State :=
  s.whenIdle fun s => { s with cmdl := w.setWidth 8, busy := true }

/-- RxPush: a byte pushed after end of stream is ignored (rules R38, R40). -/
def State.rxPush (s : State) (b : Byte) : State :=
  if s.rxEof then s else { s with rxq := s.rxq ++ [b] }

/-- RxEof (rules R38, R40). -/
def State.declareEof (s : State) : State :=
  { s with rxEof := true }

/-- What TXDATA reads as: bit 8 says whether bits 7:0 are a byte of TX.q, and a queue with no byte reads 0 (rule R40). -/
def txDataWord (s : State) : Word :=
  match s.txq with
  | [] => 0
  | b :: _ => 0#23 ++ 1#1 ++ b

/-- The removal of the front byte of TX.q, if there is one (rules R39, R40). -/
def State.txDrop (s : State) : State :=
  { s with txq := s.txq.drop 1 }

/-- `DADDR <- (DADDR + 1) mod 2^25` (rule R36). -/
def State.daddrNext (s : State) : State :=
  { s with daddr := s.daddr + 1 }

/-- DbufWrite: the byte goes to `DBUF[DADDR]` and DADDR moves on (rule R36); ignored while BUSY = 1 (rule R46). -/
def State.dbufStore (s : State) (b : Byte) : State :=
  s.whenIdle fun s => (s.memWrite s.daddr.toNat [b]).daddrNext

/-- The byte that DDATA reads as: `DBUF[DADDR]`, or while BUSY = 1 an unspecified byte (rules R36, R250, U3). -/
def dDataByte (s : State) : Byte :=
  if s.busy then Config.freeByte s.nextDraw 0 else s.dbufByte s.daddr.toNat

/-- What a read of DDATA does to the state: DADDR moves on; while BUSY = 1 it does not, and a draw is used up (rules
R36, R250, U3). -/
def State.dbufReadEffect (s : State) : State :=
  if s.busy then s.useDraw else s.daddrNext

/-- `DLEN <- v`: a value above 33554432 is ignored (rule R35). -/
def State.setDlen (s : State) (v : BitVec 26) : State :=
  if v.toNat ≤ Config.dbufCap then { s with dlen := v } else s

/-- The store of WriteReg; STATUS and CK are read only and ignore it (rules R25, R28, R45). -/
def State.storeReg (s : State) (v : RegValue) : State :=
  match v with
  | .status _ => s
  | .magic v => { s with magic := v }
  | .pver v => { s with pver := v }
  | .tsver v => { s with tsver := v }
  | .val v => { s with val := v }
  | .naTime v => { s with naTime := v }
  | .naSvc v => { s with naSvc := v }
  | .naIp v => { s with naIp := v }
  | .naPort v => { s with naPort := v }
  | .hMagic v => { s with hMagic := v }
  | .hCmd v => { s with hCmd := v }
  | .hSize v => { s with hSize := v }
  | .hCksum v => { s with hCksum := v }
  | .cmdLen v => { s with cmdLen := v }
  | .ck _ => s
  | .dlen v => s.setDlen v
  | .daddr v => { s with daddr := v }

/-- WriteReg (rules R46, R250). -/
def State.writeReg (s : State) (v : RegValue) : State :=
  s.whenIdle fun s => s.storeReg v

/-- The name of the register that a value is for. -/
def RegValue.name (v : RegValue) : RegName :=
  match v with
  | .status _ => .status
  | .magic _ => .magic
  | .pver _ => .pver
  | .tsver _ => .tsver
  | .val _ => .val
  | .naTime _ => .naTime
  | .naSvc _ => .naSvc
  | .naIp _ => .naIp
  | .naPort _ => .naPort
  | .hMagic _ => .hMagic
  | .hCmd _ => .hCmd
  | .hSize _ => .hSize
  | .hCksum _ => .hCksum
  | .cmdLen _ => .cmdLen
  | .ck _ => .ck
  | .dlen _ => .dlen
  | .daddr _ => .daddr

/-- ReadReg: the register's current value, at any time (rule R46). -/
def State.readReg (s : State) (r : RegName) : RegValue :=
  match r with
  | .status => .status (statusWord s)
  | .magic => .magic s.magic
  | .pver => .pver s.pver
  | .tsver => .tsver s.tsver
  | .val => .val s.val
  | .naTime => .naTime s.naTime
  | .naSvc => .naSvc s.naSvc
  | .naIp => .naIp s.naIp
  | .naPort => .naPort s.naPort
  | .hMagic => .hMagic s.hMagic
  | .hCmd => .hCmd s.hCmd
  | .hSize => .hSize s.hSize
  | .hCksum => .hCksum s.hCksum
  | .cmdLen => .cmdLen s.cmdLen
  | .ck => .ck s.ck
  | .dlen => .dlen s.dlen
  | .daddr => .daddr s.daddr

/-- The names of the register map (rule R62). -/
inductive BusReg where
  | cmd | status | magic | pver | tsver | valLo | valHi | naTime | naSvcLo | naSvcHi
  | naIp0 | naIp1 | naIp2 | naIp3 | naPort | hMagic | hCmd0 | hCmd1 | hCmd2 | hSize | hCksum
  | cmdLen | ck | dlen | daddr | ddata | rxdata | rxctl | txdata
  /-- Offsets 0x74 and above. -/
  | reserved
  deriving DecidableEq, Repr

/-- The register at a byte offset that is a multiple of 4 (rule R62). -/
def BusReg.ofOffset (offset : Nat) : BusReg :=
  match offset with
  | 0x00 => .cmd
  | 0x04 => .status
  | 0x08 => .magic
  | 0x0C => .pver
  | 0x10 => .tsver
  | 0x14 => .valLo
  | 0x18 => .valHi
  | 0x1C => .naTime
  | 0x20 => .naSvcLo
  | 0x24 => .naSvcHi
  | 0x28 => .naIp0
  | 0x2C => .naIp1
  | 0x30 => .naIp2
  | 0x34 => .naIp3
  | 0x38 => .naPort
  | 0x3C => .hMagic
  | 0x40 => .hCmd0
  | 0x44 => .hCmd1
  | 0x48 => .hCmd2
  | 0x4C => .hSize
  | 0x50 => .hCksum
  | 0x54 => .cmdLen
  | 0x58 => .ck
  | 0x5C => .dlen
  | 0x60 => .daddr
  | 0x64 => .ddata
  | 0x68 => .rxdata
  | 0x6C => .rxctl
  | 0x70 => .txdata
  | _ => .reserved

/-- Word `k` of a byte array: bytes `4k` to `4k + 3`, byte `4k` in bits 7:0 (`10_state.md` rule R26). -/
def arrayWord {n : Nat} (a : Bytes n) (k : Nat) : Word :=
  leWord (slice a.toList (4 * k) (4 * k + 4))

/-- A byte array with word `k` replaced (`10_state.md` rule R26). -/
def setArrayWord {n : Nat} (a : Bytes n) (k : Nat) (w : Word) : Bytes n :=
  bytesOf n (a.toList.take (4 * k) ++ leBytes 4 w.toNat ++ a.toList.drop (4 * k + 4))

/-- The word a 32-bit read of a register returns; bits above the register's width read as 0, and CMD and the reserved
offsets read as 0 (rules R30, R40, R62). DESIGN CHOICE: RXDATA is write only and no rule says what a read of it returns;
its bits 7:0 read as a free byte and bits 31:8 as 0 (log entry 20). -/
def State.busWord (s : State) (r : BusReg) : Word :=
  match r with
  | .cmd => 0
  | .status => statusWord s
  | .magic => arrayWord s.magic 0
  | .pver => s.pver
  | .tsver => s.tsver
  | .valLo => s.val.extractLsb' 0 32
  | .valHi => s.val.extractLsb' 32 32
  | .naTime => s.naTime
  | .naSvcLo => s.naSvc.extractLsb' 0 32
  | .naSvcHi => s.naSvc.extractLsb' 32 32
  | .naIp0 => arrayWord s.naIp 0
  | .naIp1 => arrayWord s.naIp 1
  | .naIp2 => arrayWord s.naIp 2
  | .naIp3 => arrayWord s.naIp 3
  | .naPort => s.naPort.setWidth 32
  | .hMagic => arrayWord s.hMagic 0
  | .hCmd0 => arrayWord s.hCmd 0
  | .hCmd1 => arrayWord s.hCmd 1
  | .hCmd2 => arrayWord s.hCmd 2
  | .hSize => s.hSize
  | .hCksum => arrayWord s.hCksum 0
  | .cmdLen => s.cmdLen.setWidth 32
  | .ck => arrayWord s.ck 0
  | .dlen => s.dlen.setWidth 32
  | .daddr => s.daddr.setWidth 32
  | .ddata => (dDataByte s).setWidth 32
  | .rxdata => (Config.freeByte s.nextDraw 0).setWidth 32
  | .rxctl => (BitVec.ofBool s.rxEof).setWidth 32
  | .txdata => txDataWord s
  | .reserved => 0

/-- What a read of a register does to the state: DDATA and TXDATA alone have a side effect (rule R63). A read of RXDATA
uses up a draw, which is the model's own and no element of the block (log entry 20). -/
def State.busReadEffect (s : State) (r : BusReg) : State :=
  match r with
  | .ddata => s.dbufReadEffect
  | .txdata => s.txDrop
  | .rxdata => s.useDraw
  | _ => s

/-- The effect of a 32-bit write of a register; bits above the register's width are ignored, and so is a write of STATUS,
CK, TXDATA or a reserved offset (rules R25, R28, R40, R62). -/
def State.busStore (s : State) (r : BusReg) (w : Word) : State :=
  match r with
  | .cmd => s.issue w
  | .status => s
  | .magic => s.writeReg (.magic (setArrayWord s.magic 0 w))
  | .pver => s.writeReg (.pver w)
  | .tsver => s.writeReg (.tsver w)
  | .valLo => s.writeReg (.val (s.val.extractLsb' 32 32 ++ w))
  | .valHi => s.writeReg (.val (w ++ s.val.extractLsb' 0 32))
  | .naTime => s.writeReg (.naTime w)
  | .naSvcLo => s.writeReg (.naSvc (s.naSvc.extractLsb' 32 32 ++ w))
  | .naSvcHi => s.writeReg (.naSvc (w ++ s.naSvc.extractLsb' 0 32))
  | .naIp0 => s.writeReg (.naIp (setArrayWord s.naIp 0 w))
  | .naIp1 => s.writeReg (.naIp (setArrayWord s.naIp 1 w))
  | .naIp2 => s.writeReg (.naIp (setArrayWord s.naIp 2 w))
  | .naIp3 => s.writeReg (.naIp (setArrayWord s.naIp 3 w))
  | .naPort => s.writeReg (.naPort (w.setWidth 16))
  | .hMagic => s.writeReg (.hMagic (setArrayWord s.hMagic 0 w))
  | .hCmd0 => s.writeReg (.hCmd (setArrayWord s.hCmd 0 w))
  | .hCmd1 => s.writeReg (.hCmd (setArrayWord s.hCmd 1 w))
  | .hCmd2 => s.writeReg (.hCmd (setArrayWord s.hCmd 2 w))
  | .hSize => s.writeReg (.hSize w)
  | .hCksum => s.writeReg (.hCksum (setArrayWord s.hCksum 0 w))
  | .cmdLen => s.writeReg (.cmdLen (w.setWidth 4))
  | .ck => s
  | .dlen => s.writeReg (.dlen (w.setWidth 26))
  | .daddr => s.writeReg (.daddr (w.setWidth 25))
  | .ddata => s.dbufStore (w.setWidth 8)
  | .rxdata => s.rxPush (w.setWidth 8)
  | .rxctl => if w.getLsbD 0 then s.declareEof else s
  | .txdata => s
  | .reserved => s

/-- The host takes the word that a bus read returned; the read's own effect happens too (rules R46, R63). -/
def State.busRead (s : State) (r : BusReg) : State :=
  { s.busReadEffect r with hostData := .word (s.busWord r) }

/-- Reset: every element at its value of rule R240, whatever the engine was doing. The bytes of DBUF are unspecified
afresh; the host's schedule and what it has read are not the block's and stay (rules R240, R241). -/
def State.resetBlock (s : State) : State :=
  { State.reset with
    script := s.script, hostData := s.hostData, epoch := s.nextDraw, nextDraw := s.nextDraw + 1 }

/-- One action of the host (rule R46). -/
def hostAct (a : HostAction) (s : State) : Outcome State Fault Refusal :=
  match a with
  | .writeReg v => .next (s.writeReg v)
  | .readReg r => .next { s with hostData := .reg (s.readReg r) }
  | .dbufWrite b => .next (s.dbufStore b)
  | .dbufRead => .next (s.busRead .ddata)
  | .rxPush b => .next (s.rxPush b)
  | .rxEof => .next s.declareEof
  | .txPop => .next (s.busRead .txdata)
  | .issue w => .next (s.issue w)
  | .reset => .next s.resetBlock
  | .busWrite width offset v =>
    if busAccessOk width offset then .next (s.busStore (.ofOffset offset) v) else .refused .busAccessOutsideSpec
  | .busRead width offset =>
    if busAccessOk width offset then .next (s.busRead (.ofOffset offset)) else .refused .busAccessOutsideSpec

end Sys2Proof.Machine
end

