-- ==== Sys2Proof/Machine/Engine.lean ====
section
/-! DEFINITION. The engine's turn (`10_state.md` rule R20, `20_memory.md` rule R53): the one place where a latched command
word is read and decoded. -/

namespace Sys2Proof.Machine

open Sys2Proof Host

/-- The engine's turn. While BUSY = 1 its one step is the completion of the latched command, an illegal word among them
(rules R53, R78, R212); while BUSY = 0 it is idle (rule R242). -/
def engineAct (s : State) : Outcome State Fault Refusal :=
  if s.busy then
    match decode s.cmdl with
    | .ok i => exec i s
    | .error _ => completeIllegal s
  else .next s

/-- The state in which the command word `w` is latched and the engine moves next. -/
def State.latchWord (s : State) (w : Byte) : State :=
  { s with cmdl := w, busy := true, script := .engine :: s.script }

end Sys2Proof.Machine
end

