-- ==== Sys2Proof/Machine/Step.lean ====
section
/-! DEFINITION. One step of the block and its host: the turn at the head of the schedule. With no turn left in the
schedule the engine moves. -/

namespace Sys2Proof.Machine

open Sys2Proof Host

/-- One step (`10_state.md` rules R20, R43, R46; `20_memory.md` rule R65). -/
def step (s : State) : Outcome State Fault Refusal :=
  match s.script with
  | [] => engineAct s
  | .engine :: rest => engineAct { s with script := rest }
  | .host a :: rest => hostAct a { s with script := rest }

/-- The state in which the next step completes the command word `w` of `nbits` bits. The block has no fetch: a command
is latched in CMDL with BUSY = 1 (`10_state.md` rules R27, R42), so this is the state after the host's Issue, with the
engine to move. A command is one byte; a longer word's later bytes have no place in CMDL. -/
def State.withFetchWord (s : State) (_nbits w : Nat) : State :=
  s.latchWord (BitVec.ofNat 8 w)

end Sys2Proof.Machine
end

