-- ==== Sys2Proof/Machine/HostProgram.lean ====
section
/-! DEFINITION. Names for host programs (`30_encoding.md` rules R88, R90, R93): the assembler's lines as host actions, the
pseudo-instructions as command sequences, the known command tokens, and the 16-byte form of an IPv4 address. The block
implements none of them. -/

namespace Sys2Proof.Machine

open Sys2Proof Host

/-- One line of a host program (rule R90). -/
inductive AsmLine where
  /-- `set REG = value`. -/
  | set (v : RegValue)
  /-- `dbuf hexbytes`. -/
  | dbuf (bs : List Byte)
  /-- `rx hexbytes`. -/
  | rx (bs : List Byte)
  /-- `eof`. -/
  | eof
  /-- A mnemonic, with `.T` where the command has T = 1. -/
  | command (i : Instr)
  deriving DecidableEq, Repr

/-- The turns of a line: the host's actions and, for a command, the engine's completion (rule R90). Where the command
holds, the host waits on. -/
def AsmLine.turns : AsmLine → List Turn
  | .set v => [.host (.writeReg v)]
  | .dbuf bs =>
    .host (.writeReg (.daddr 0)) :: bs.map (fun b => .host (.dbufWrite b))
      ++ [.host (.writeReg (.dlen (BitVec.ofNat 26 bs.length)))]
  | .rx bs => bs.map fun b => .host (.rxPush b)
  | .eof => [.host .rxEof]
  | .command i => [.host (.issue ((encode i).setWidth 32)), .engine]

/-- A host program's schedule (rule R90). -/
def asmTurns (p : List AsmLine) : List Turn :=
  p.flatMap AsmLine.turns

/-- Issue of a command followed by the engine's turn (rules R48, R53, R90). -/
def issueAndComplete (i : Instr) (s : State) : Outcome State Fault Refusal :=
  engineAct (s.issue ((encode i).setWidth 32))

/-- A host sequence that stops once a command completes with `ERR != 0x00`, or does not complete (rule R93). -/
def runUntilError : List Instr → State → Outcome State Fault Refusal
  | [], s => .next s
  | i :: is, s =>
    match issueAndComplete i s with
    | .next s' => if s'.busy || s'.err != 0x00 then .next s' else runUntilError is s'
    | .fault r => .fault r
    | .refused r => .refused r

/-- MSG.SEND (rule R93). -/
def msgSend : List Instr :=
  [.hdrBuild, .hdrEnc, .bodyWr]

/-- MSG.RECV (rule R93). -/
def msgRecv : List Instr :=
  [.hdrDec, .bodyRd, .cksumVfy]

/-- HDR.RETRY: HDR.DEC again after one that ended with FRAME_WRONG_NETWORK or FRAME_INVALID_COMMAND and
`DRAINSHORT = 0` (rule R93). -/
def hdrRetry : List Instr :=
  [.hdrDec]

/-- When HDR.RETRY applies (rule R93). -/
def hdrRetryApplies (s : State) : Bool :=
  (s.err == ErrCode.frameWrongNetwork.code || s.err == ErrCode.frameInvalidCommand.code) && !s.drainshort

/-- The command tokens of rule R88. The header unit checks no command against them. -/
inductive Token where
  | version | verack | getaddr | inv | ping | pong | block | tx | getdata
  deriving DecidableEq, Repr

/-- The ASCII codes of a token (rule R88). -/
def Token.text : Token → List Byte
  | .version => [0x76, 0x65, 0x72, 0x73, 0x69, 0x6F, 0x6E]
  | .verack => [0x76, 0x65, 0x72, 0x61, 0x63, 0x6B]
  | .getaddr => [0x67, 0x65, 0x74, 0x61, 0x64, 0x64, 0x72]
  | .inv => [0x69, 0x6E, 0x76]
  | .ping => [0x70, 0x69, 0x6E, 0x67]
  | .pong => [0x70, 0x6F, 0x6E, 0x67]
  | .block => [0x62, 0x6C, 0x6F, 0x63, 0x6B]
  | .tx => [0x74, 0x78]
  | .getdata => [0x67, 0x65, 0x74, 0x64, 0x61, 0x74, 0x61]

/-- The 12-byte command field of a token, zero-padded (rule R88). -/
def Token.field (t : Token) : Bytes 12 :=
  bytesOf 12 t.text

/-- The IPv4 address `a.b.c.d` in IPv4-mapped-IPv6 form, which is the host's work (`42_netaddress.md` rule R139). -/
def ipv4Mapped (a b c d : Byte) : Bytes 16 :=
  bytesOf 16 [0, 0, 0, 0, 0, 0, 0, 0, 0, 0, 0xFF, 0xFF, a, b, c, d]

end Sys2Proof.Machine
end

