-- ==== Sys2Proof/Safety.lean ====
section
/-! DEFINITION. What counts as a safe state and a safe step: the invariants that the spec's rules promise between the
elements of the state, and the absence of faults. -/

namespace Sys2Proof.Machine

open Sys2Proof Host

/-- The codes the block produces: those of `60_exceptions.md` rule R211 less PROTO_MALFORMED_ADDRESS, which is never
raised. -/
def ErrCode.producible (c : ErrCode) : Bool :=
  c != .protoMalformedAddress

/-- What holds of the state at all times. -/
structure State.Inv (s : State) : Prop where
  /-- DLEN <= 33554432 "at all times" (`10_state.md` rule R35). -/
  dlen_le : s.dlen.toNat ≤ Config.dbufCap
  /-- DBUF is in its canonical form, so no byte is stored at an address that does not exist (`10_state.md` rule R35). -/
  dbuf_wf : s.dbuf.wf
  /-- ERR holds a code that the block produces: every other value is "never produced" (`60_exceptions.md` rule R211). -/
  err_produced : ∃ c : ErrCode, c.producible = true ∧ s.err = c.code
  /-- An error other than IO_EOF that is still in ERR is recorded in ESTICKY (`10_state.md` rule R28). -/
  err_sticky : s.err ≠ 0x00 → s.err ≠ 0x32 → s.esticky = true
  /-- After IO_SHORT_READ or IO_EOF, RX.q is empty and end of stream declared (`60_exceptions.md` rule R220). -/
  short_read_ended : s.err = 0x31 ∨ s.err = 0x32 → s.rxEof = true ∧ s.rxq = []
  /-- While DRAINSHORT = 1, RX.q is empty and end of stream declared (`60_exceptions.md` rule R220). -/
  drainshort_ended : s.drainshort = true → s.rxEof = true ∧ s.rxq = []
  /-- The model's own draws are used once each: what DBUF holds unwritten came from an earlier draw. -/
  epoch_lt : s.epoch < s.nextDraw

/-- The step ends in a next state. -/
def StepsOn (o : Outcome State Fault Refusal) : Prop :=
  ∃ s', o = .next s'

/-- A turn that makes no bus access of another width or alignment than rule R61 of `20_memory.md` gives. A read of the
write-only RXDATA is let through (log entry 20). -/
def Turn.withinSpec : Turn → Bool
  | .host (.busWrite width offset _) => busAccessOk width offset
  | .host (.busRead width offset) => busAccessOk width offset
  | _ => true

/-! ### What a command writes and what it leaves alone -/

/-- The report of a completion with code `c` (`60_exceptions.md` rule R216): ERR holds the code, every code but OK and
IO_EOF sets ESTICKY and those two leave it, BUSY is 0. -/
structure EndsWith (c : ErrCode) (s t : State) : Prop where
  err : t.err = c.code
  esticky : t.esticky = if c = .ok ∨ c = .ioEof then s.esticky else true
  busy : t.busy = false

/-- The named registers that are not in `written` read as before, and so do CMDL, end of stream, the schedule and what
the host has read. STATUS is the matter of `EndsWith` and `FlagsKept`. -/
structure RegsKept (written : List RegName) (s t : State) : Prop where
  regs : ∀ r, r ≠ .status → r ∉ written → t.readReg r = s.readReg r
  cmdl : t.cmdl = s.cmdl
  rxEof : t.rxEof = s.rxEof
  script : t.script = s.script
  hostData : t.hostData = s.hostData

/-- DRAINSHORT and NATS are as before. -/
structure FlagsKept (s t : State) : Prop where
  drainshort : t.drainshort = s.drainshort
  nats : t.nats = s.nats

/-- Every byte of DBUF at address `n` or above reads as before. -/
def DbufKeptFrom (n : Nat) (s t : State) : Prop :=
  ∀ a, n ≤ a → t.dbufByte a = s.dbufByte a

/-- RX and TX hold what they held. -/
structure StreamsKept (s t : State) : Prop where
  rxq : t.rxq = s.rxq
  txq : t.txq = s.txq

/-- The codes a command can end with (`60_exceptions.md` rule R214). -/
def commandCodes (i : Instr) : List ErrCode :=
  match i with
  | .nop => [.ok]
  | .varintEnc => [.ok]
  | .varintDec => [.ok, .ioShortRead, .protoNoncanonicalVarint]
  | .varstrEnc => [.ok]
  | .varstrDec => [.ok, .ioShortRead, .protoNoncanonicalVarint, .protoVarstringTooLong]
  | .netaddrEnc _ => [.ok]
  | .netaddrDec _ => [.ok, .ioShortRead]
  | .cksumGen => [.ok]
  | .cksumVfy => [.ok, .frameChecksumMismatch]
  | .hdrBuild => [.ok, .cmdBadOperand]
  | .hdrEnc => [.ok]
  | .hdrDec => [.ok, .ioEof, .ioShortRead, .framePayloadTooLarge, .frameWrongNetwork, .frameInvalidCommand]
  | .bodyRd => [.ok, .framePayloadTooLarge, .ioShortRead]
  | .bodyWr => [.ok]
  | .clrerr => [.ok]

/-- The state a command's report is relative to: for CLRERR the one with ESTICKY cleared (`45_body_system.md` rule
R206). -/
def reportBase (i : Instr) (s : State) : State :=
  match i with
  | .clrerr => s.clearSticky
  | .nop | .varintEnc | .varintDec | .varstrEnc | .varstrDec | .netaddrEnc _ | .netaddrDec _ | .cksumGen
  | .cksumVfy | .hdrBuild | .hdrEnc | .hdrDec | .bodyRd | .bodyWr => s

/-- The commands that read RX (`20_memory.md` rule R50). -/
def readsRx (i : Instr) : Bool :=
  match i with
  | .varintDec | .varstrDec | .netaddrDec _ | .hdrDec | .bodyRd => true
  | .nop | .varintEnc | .varstrEnc | .netaddrEnc _ | .cksumGen | .cksumVfy | .hdrBuild | .hdrEnc | .bodyWr
  | .clrerr => false

/-- The commands that append to TX (`20_memory.md` rule R50). -/
def writesTx (i : Instr) : Bool :=
  match i with
  | .varintEnc | .varstrEnc | .netaddrEnc _ | .hdrEnc | .bodyWr => true
  | .nop | .varintDec | .varstrDec | .netaddrDec _ | .cksumGen | .cksumVfy | .hdrBuild | .hdrDec | .bodyRd
  | .clrerr => false

/-- The word in which byte `k` of four is bits `8k+7:8k` (`10_state.md` rule R26). -/
def wordOfBytes (b0 b1 b2 b3 : Byte) : Word :=
  b3 ++ b2 ++ b1 ++ b0

/-- What the registers that the host can read without effect hold, by offset, as their 32-bit words (`20_memory.md` rule
R62): every readable register of the map but DDATA and TXDATA. A narrower register is extended with zeros. -/
def mapWords (s : State) : List (Nat × Word) :=
  [(0x00, 0), (0x04, statusWord s),
    (0x08, wordOfBytes s.magic[0] s.magic[1] s.magic[2] s.magic[3]), (0x0C, s.pver), (0x10, s.tsver),
    (0x14, s.val.extractLsb' 0 32), (0x18, s.val.extractLsb' 32 32), (0x1C, s.naTime),
    (0x20, s.naSvc.extractLsb' 0 32), (0x24, s.naSvc.extractLsb' 32 32)] ++
  [(0x28, wordOfBytes s.naIp[0] s.naIp[1] s.naIp[2] s.naIp[3]),
    (0x2C, wordOfBytes s.naIp[4] s.naIp[5] s.naIp[6] s.naIp[7]),
    (0x30, wordOfBytes s.naIp[8] s.naIp[9] s.naIp[10] s.naIp[11]),
    (0x34, wordOfBytes s.naIp[12] s.naIp[13] s.naIp[14] s.naIp[15]), (0x38, s.naPort.setWidth 32)] ++
  [(0x3C, wordOfBytes s.hMagic[0] s.hMagic[1] s.hMagic[2] s.hMagic[3]),
    (0x40, wordOfBytes s.hCmd[0] s.hCmd[1] s.hCmd[2] s.hCmd[3]),
    (0x44, wordOfBytes s.hCmd[4] s.hCmd[5] s.hCmd[6] s.hCmd[7]),
    (0x48, wordOfBytes s.hCmd[8] s.hCmd[9] s.hCmd[10] s.hCmd[11]), (0x4C, s.hSize),
    (0x50, wordOfBytes s.hCksum[0] s.hCksum[1] s.hCksum[2] s.hCksum[3]), (0x54, s.cmdLen.setWidth 32),
    (0x58, wordOfBytes s.ck[0] s.ck[1] s.ck[2] s.ck[3]), (0x5C, s.dlen.setWidth 32), (0x60, s.daddr.setWidth 32),
    (0x6C, if s.rxEof then 1 else 0)]

/-- The bits of a bus register that hold a value; the others read as 0 and are ignored on write (`20_memory.md` rule
R62). -/
def busMask (r : BusReg) : Word :=
  match r with
  | .naPort => 0x0000FFFF
  | .cmdLen => 0x0000000F
  | .dlen => 0x03FFFFFF
  | .daddr => 0x01FFFFFF
  | _ => 0xFFFFFFFF

/-- The bus registers that hold a value the host reads and writes (`20_memory.md` rule R62); DDATA, RXCTL and the
stream registers, whose accesses do something else, are not among them. -/
def busStorage : List BusReg :=
  [.magic, .pver, .tsver, .valLo, .valHi, .naTime, .naSvcLo, .naSvcHi, .naIp0, .naIp1, .naIp2, .naIp3, .naPort,
    .hMagic, .hCmd0, .hCmd1, .hCmd2, .hSize, .hCksum, .cmdLen, .dlen, .daddr]

/-- `s` with the registers that rule R45 lets the host write taken from `t`. That this is `t` says that `t` differs from
`s` in those registers at most: not in STATUS, CK, CMDL, DBUF, RX, TX or the model's own fields. -/
def State.withHostRegs (s t : State) : State :=
  { s with
    magic := t.magic, pver := t.pver, tsver := t.tsver, val := t.val, naTime := t.naTime, naSvc := t.naSvc,
    naIp := t.naIp, naPort := t.naPort, hMagic := t.hMagic, hCmd := t.hCmd, hSize := t.hSize, hCksum := t.hCksum,
    cmdLen := t.cmdLen, dlen := t.dlen, daddr := t.daddr }

/-- The register map, offset by offset (`20_memory.md` rule R62). -/
def busMap : List (Nat × BusReg) :=
  [(0x00, .cmd), (0x04, .status), (0x08, .magic), (0x0C, .pver), (0x10, .tsver), (0x14, .valLo), (0x18, .valHi),
    (0x1C, .naTime), (0x20, .naSvcLo), (0x24, .naSvcHi), (0x28, .naIp0), (0x2C, .naIp1), (0x30, .naIp2),
    (0x34, .naIp3), (0x38, .naPort)] ++
  [(0x3C, .hMagic), (0x40, .hCmd0), (0x44, .hCmd1), (0x48, .hCmd2), (0x4C, .hSize), (0x50, .hCksum),
    (0x54, .cmdLen), (0x58, .ck), (0x5C, .dlen), (0x60, .daddr), (0x64, .ddata), (0x68, .rxdata), (0x6C, .rxctl),
    (0x70, .txdata)]

/-- The header registers hold the fields of the 24 bytes at the front of `q`, and CMD_LEN the length of the stripped
command field (`44_header.md` rules R175, R181). -/
structure Latched (q : List Byte) (t : State) : Prop where
  magic : t.hMagic.toList = slice q 0 4
  cmd : t.hCmd.toList = slice q 4 16
  size : t.hSize.toNat = le (slice q 16 20)
  cksum : t.hCksum.toList = slice q 20 24
  cmdLen : t.cmdLen.toNat = (stripZeros (slice q 4 16)).length

/-- The validation of a 24-byte header that fails first, once its size has passed (`44_header.md` rule R181, steps 3 and
4): the magic before the command text. -/
def failedValidation (magic : Bytes 4) (q : List Byte) : Option ErrCode :=
  if slice q 0 4 ≠ magic.toList then some .frameWrongNetwork
  else if ∃ b ∈ stripZeros (slice q 4 16), b.toNat < 0x01 ∨ 0x7F < b.toNat then some .frameInvalidCommand
  else none

end Sys2Proof.Machine
end

