-- ==== Sys2Proof/Certificates/Slice0/Obligations.lean ====
section
/-! DEFINITION. The statements about the block, one `def Obligations.<Name> : Prop` each, listed in OBLIGATIONS.json. -/

open Sys2Proof Sys2Proof.Machine Host

/-! ### Command words -/

/-- Rule R78: the legal words are the seventeen it lists, a word is illegal exactly when OP = 0xF, RSV is not 000, or
T = 1 with OP neither 0x5 nor 0x6; and an illegal word is still issued and completes with CMD_ILLEGAL and no other
effect. -/
def Obligations.SeventeenWordsAreLegal : Prop :=
  (∀ b : Byte, (∃ i, decode b = .ok i) ↔
    b ∈ ([0x00, 0x10, 0x20, 0x30, 0x40, 0x50, 0x51, 0x60, 0x61, 0x70, 0x80, 0x90, 0xA0, 0xB0, 0xC0, 0xD0, 0xE0] :
      List Byte)) ∧
  (∀ b : Byte, (∃ e, decode b = .error e) ↔
    b.extractLsb' 4 4 = 0xF ∨ b.extractLsb' 1 3 ≠ 0 ∨
      (b.getLsbD 0 = true ∧ b.extractLsb' 4 4 ≠ 0x5 ∧ b.extractLsb' 4 4 ≠ 0x6)) ∧
  (∀ (s : State) (w : Word) (e : Reject), s.busy = false → decode (w.setWidth 8) = .error e →
    (s.issue w).busy = true ∧ (s.issue w).cmdl = w.setWidth 8 ∧
    engineAct (s.issue w) = .next { s with cmdl := w.setWidth 8, err := 0xF1, esticky := true })

/-- Rule R212: an illegal word's completion writes ERR, ESTICKY and BUSY and nothing else, and never holds. -/
def Obligations.IllegalWordOnlyReports : Prop :=
  ∀ (s : State) (e : Reject), s.busy = true → decode s.cmdl = .error e →
    engineAct s = .next { s with err := 0xF1, esticky := true, busy := false }

/-- The words of the operation map of rule R77, each with the command it names. -/
def Obligations.OperationMapDecodes : Prop :=
  decode 0x00 = .ok .nop ∧ decode 0x10 = .ok .varintEnc ∧ decode 0x20 = .ok .varintDec ∧
  decode 0x30 = .ok .varstrEnc ∧ decode 0x40 = .ok .varstrDec ∧
  decode 0x50 = .ok (.netaddrEnc false) ∧ decode 0x51 = .ok (.netaddrEnc true) ∧
  decode 0x60 = .ok (.netaddrDec false) ∧ decode 0x61 = .ok (.netaddrDec true) ∧
  decode 0x70 = .ok .cksumGen ∧ decode 0x80 = .ok .cksumVfy ∧ decode 0x90 = .ok .hdrBuild ∧
  decode 0xA0 = .ok .hdrEnc ∧ decode 0xB0 = .ok .hdrDec ∧ decode 0xC0 = .ok .bodyRd ∧
  decode 0xD0 = .ok .bodyWr ∧ decode 0xE0 = .ok .clrerr

/-- Decode and encode agree in both directions: every command comes back from its word, and every word that decodes is
the word of the command it decodes to, so each command has one word (rules R77, R79). How a row of the opcode table is
read is log entry 2. -/
def Obligations.DecodeAndEncodeAgree : Prop :=
  (∀ i, decode (encode i) = .ok i) ∧ (∀ b i, decode b = .ok i → encode i = b) ∧
  (∀ i, decodeTableWord 8 (encode i).toNat = some i)

/-- A step with the engine to move runs exactly the latched command (rules R42, R53): `exec` of it, in the state with
that turn gone from the schedule; with BUSY = 0 the engine is idle. A step with the host to move is that action. The
schedule and withFetchWord are the model's (log entries 1 and 2). -/
def Obligations.StepRunsTheLatchedCommand : Prop :=
  (∀ (s : State) (i : Instr), (s.script = [] ∨ ∃ rest, s.script = .engine :: rest) → s.busy = true →
    decode s.cmdl = .ok i → step s = exec i { s with script := s.script.tail }) ∧
  (∀ s : State, (s.script = [] ∨ ∃ rest, s.script = .engine :: rest) → s.busy = false →
    step s = .next { s with script := s.script.tail }) ∧
  (∀ (s : State) (a : HostAction) (rest : List Turn), s.script = .host a :: rest →
    step s = hostAct a { s with script := rest }) ∧
  (∀ (s : State) (i : Instr), step (s.withFetchWord 8 (encode i).toNat) =
    exec i { s with cmdl := encode i, busy := true })

/-! ### Reset and invariants -/

/-- Rule R240: reset, at any time and whatever the engine is doing, puts every element at the value the rule names.
The bytes of DBUF are those of a draw that nothing has used before, so nothing is known of them. The draw is the
model's form of unspecified contents (log entries 5 and 16): it is the next one, and it is used up. The schedule and the
host's last read, which are not the block's, are kept (log entry 16). -/
def Obligations.ResetPutsEveryElement : Prop :=
  ∀ s : State, ∃ t, hostAct .reset s = .next t ∧
    t.busy = false ∧ t.esticky = false ∧ t.rxEof = false ∧ t.drainshort = false ∧ t.nats = false ∧ t.err = 0x00 ∧
    t.cmdl = 0x00 ∧ t.magic.toList = List.replicate 4 0 ∧ t.pver = 0 ∧ t.tsver = 0 ∧ t.val = 0 ∧ t.naTime = 0 ∧
    t.naSvc = 0 ∧ t.naIp.toList = List.replicate 16 0 ∧ t.naPort = 0 ∧ t.hMagic.toList = List.replicate 4 0 ∧
    t.hCmd.toList = List.replicate 12 0 ∧ t.hSize = 0 ∧ t.hCksum.toList = List.replicate 4 0 ∧ t.cmdLen = 0 ∧
    t.ck.toList = List.replicate 4 0 ∧ t.dlen = 0 ∧ t.daddr = 0 ∧ t.rxq = [] ∧ t.txq = [] ∧
    (∀ a, t.dbufByte a = Config.freeByte s.nextDraw a) ∧
    t.script = s.script ∧ t.hostData = s.hostData ∧ t.epoch = s.nextDraw ∧ s.nextDraw < t.nextDraw ∧
    { State.reset with script := t.script, hostData := t.hostData, epoch := t.epoch, nextDraw := t.nextDraw } = t

/-- The invariant holds right after reset. The draw numbers it speaks of are the model's (log entry 5). -/
def Obligations.InvariantHoldsAtReset : Prop :=
  State.reset.Inv

/-- Every step, of the engine or of the host, keeps the invariant: DLEN within its bound, DBUF in canonical form, ERR
a code the block produces and recorded in ESTICKY, and an emptied, ended input after a short read, an end of stream or
a drain cut short (rules R35, R211, R28, R220). The draw numbers it also speaks of are the model's (log entry 5). -/
def Obligations.EveryStepKeepsTheInvariant : Prop :=
  ∀ s t : State, s.Inv → step s = .next t → t.Inv

/-- No error stops the block (rule R220): where the invariant holds, a step always answers a next state, unless the host
makes a bus access of another width or alignment (rule R61). That a hold, which rule R53 calls not enabled, counts as a
step with a next state is the model's convention (log entry 3), and so is the idle engine's turn (log entry 2). Rule R64
gives success to the accesses that the map of rule R62 allows; that a read of the write-only RXDATA (0x68) is allowed
and succeeds is the model's choice (log entry 20). -/
def Obligations.NoStepStopsTheBlock : Prop :=
  ∀ s : State, s.Inv → (∀ a rest, s.script = .host a :: rest → (Turn.host a).withinSpec = true) →
    ∃ t, step s = .next t

/-- End of stream is permanent until reset, and from then on RX only loses bytes, always from the front (rules R38,
R257). -/
def Obligations.EndOfStreamIsPermanent : Prop :=
  ∀ s t : State, s.rxEof = true → (∀ rest, s.script ≠ .host .reset :: rest) → step s = .next t →
    t.rxEof = true ∧ t.rxq <:+ s.rxq

/-- The stream positions move as rule R27 says: a command takes bytes from the front of RX, and only a command that reads
RX does; it appends to the back of TX, and only an encode command does; no command touches end of stream, MAGIC, PVER,
TSVER or DADDR (rules R36, R38, R39, R45). -/
def Obligations.CommandsMoveTheStreamsOneWay : Prop :=
  ∀ (i : Instr) (s t : State), exec i s = .next t →
    t.rxq <:+ s.rxq ∧ s.txq <+: t.txq ∧
    (readsRx i = false → t.rxq = s.rxq) ∧ (writesTx i = false → t.txq = s.txq) ∧
    t.rxEof = s.rxEof ∧ t.magic = s.magic ∧ t.pver = s.pver ∧ t.tsver = s.tsver ∧ t.daddr = s.daddr ∧ t.cmdl = s.cmdl

/-! ### Completion, hold and error codes -/

/-- Rule R214: a completion of a command ends with one of the codes its row of the table lists, reported as rule R216
says (for CLRERR from the cleared sticky flag, rule R206); what is not a completion is a hold, and that changes
nothing. An illegal word ends with CMD_ILLEGAL. A hold as a next state equal to the one before is the model's
convention (log entry 3). -/
def Obligations.CommandsEndWithTheirCodes : Prop :=
  (∀ (i : Instr) (s t : State), s.busy = true → exec i s = .next t →
    (readsRx i = true ∧ t = s) ∨ ∃ c ∈ commandCodes i, EndsWith c (reportBase i s) t) ∧
  (∀ (s : State) (e : Reject), s.busy = true → decode s.cmdl = .error e →
    ∃ t, engineAct s = .next t ∧ EndsWith .cmdIllegal s t)

/-- A hold changes nothing, happens only while end of stream is not declared and only to a command that reads RX, and
declaring end of stream lifts it: the same command then completes (rule R53). A hold as a next state equal to the one
before is the model's convention (log entry 3). -/
def Obligations.EndOfStreamLiftsEveryHold : Prop :=
  ∀ (i : Instr) (s t : State), s.busy = true → exec i s = .next t → t.busy = true →
    t = s ∧ readsRx i = true ∧ s.rxEof = false ∧ ∃ u, exec i s.declareEof = .next u ∧ u.busy = false

/-- Rule R54: a completion does not depend on when it fires. If a command completes on what is queued, then with more
bytes behind them it gives the same results, takes the same bytes and leaves the others behind what was left. -/
def Obligations.MoreInputDoesNotChangeACompletion : Prop :=
  ∀ (i : Instr) (s t : State) (more : List Byte), s.busy = true → s.rxEof = false → exec i s = .next t →
    t.busy = false → exec i { s with rxq := s.rxq ++ more } = .next { t with rxq := t.rxq ++ more }

/-- Once the input has ended and is empty, every decode command that needs a byte ends with IO_SHORT_READ, and HDR.DEC with
IO_EOF (rules R220, R222); BODY.RD of no bytes needs none. -/
def Obligations.EndedInputEndsEveryDecode : Prop :=
  ∀ s : State, s.rxEof = true → s.rxq = [] →
    (∀ i ∈ [Instr.varintDec, .varstrDec, .netaddrDec false, .netaddrDec true],
      ∃ t, exec i s = .next t ∧ t.rxq = [] ∧ EndsWith .ioShortRead s t) ∧
    (∃ t, exec .hdrDec s = .next t ∧ t.rxq = [] ∧ EndsWith .ioEof s t) ∧
    (0 < s.hSize.toNat → s.hSize.toNat ≤ 33554432 →
      ∃ t, exec .bodyRd s = .next t ∧ t.rxq = [] ∧ EndsWith .ioShortRead s t) ∧
    (s.hSize = 0 → ∃ t, exec .bodyRd s = .next t ∧ t.rxq = [] ∧ t.dlen = 0 ∧ EndsWith .ok s t)

/-- STATUS as the host reads it has the fields of rule R28 at their bits, reserved bits 0; a host write of STATUS, by
name or at its offset, is ignored. -/
def Obligations.StatusWordLayout : Prop :=
  (∀ s : State, ∃ t, hostAct (.busRead 4 0x04) s = .next t ∧ ∃ w : Word, t.hostData = .word w ∧
    w.getLsbD 0 = s.busy ∧ w.getLsbD 1 = s.esticky ∧ w.getLsbD 2 = s.rxEof ∧ w.getLsbD 3 = s.drainshort ∧
    w.getLsbD 4 = s.nats ∧ w.extractLsb' 5 3 = 0 ∧ w.extractLsb' 8 8 = s.err ∧ w.extractLsb' 16 16 = 0) ∧
  (∀ (s : State) (w : Word), hostAct (.busWrite 4 0x04 w) s = .next s ∧ hostAct (.writeReg (.status w)) s = .next s)

/-- No command reads a STATUS field as an operand (rule R29): with other values of ERR, ESTICKY, DRAINSHORT and NATS a
command that completes does so with the same code, and differs in none but those fields. -/
def Obligations.StatusFieldsAreNotOperands : Prop :=
  ∀ (i : Instr) (s t : State) (e : Byte) (k d n : Bool), s.busy = true → exec i s = .next t → t.busy = false →
    ∃ t', exec i { s with err := e, esticky := k, drainshort := d, nats := n } = .next t' ∧ t'.err = t.err ∧
      { t' with esticky := t.esticky, drainshort := t.drainshort, nats := t.nats } = t

/-- The engine never reads or writes DADDR (rule R36): with another value there a command does the same and leaves it
there. -/
def Obligations.EngineIgnoresDaddr : Prop :=
  ∀ (i : Instr) (s t : State) (d : BitVec 25), exec i s = .next t →
    exec i { s with daddr := d } = .next { t with daddr := d }

/-! ### Byte layouts and varints -/

/-- Rule R12: byte `i` of `LE_n(v)` is bits `8i+7:8i` of `v`, `BE_n(v)` has the same bytes the other way round, and
`le` and `be` undo them in both directions. -/
def Obligations.IntegerLayouts : Prop :=
  (∀ n v, (leBytes n v).length = n ∧ (beBytes n v).length = n) ∧
  (∀ n v i, i < n → (leBytes n v)[i]? = some (BitVec.ofNat 8 (v / 2 ^ (8 * i)))) ∧
  (∀ n v i, i < n → (beBytes n v)[i]? = some (BitVec.ofNat 8 (v / 2 ^ (8 * (n - 1 - i))))) ∧
  (∀ n v, v < 2 ^ (8 * n) → le (leBytes n v) = v ∧ be (beBytes n v) = v) ∧
  (∀ s : List Byte, leBytes s.length (le s) = s ∧ beBytes s.length (be s) = s) ∧
  leBytes 2 0x1234 = [0x34, 0x12] ∧ beBytes 2 0x1234 = [0x12, 0x34]

/-- Rule R100: the four forms of a varint, each for its range of values, and their lengths. -/
def Obligations.VarintForms : Prop :=
  ∀ v : Nat, v < 2 ^ 64 →
    (v < 0xFD → varintEncode v = [BitVec.ofNat 8 v] ∧ (varintEncode v).length = 1) ∧
    (0xFD ≤ v → v ≤ 0xFFFF → varintEncode v = [0xFD] ++ leBytes 2 v ∧ (varintEncode v).length = 3) ∧
    (0x10000 ≤ v → v ≤ 0xFFFFFFFF → varintEncode v = [0xFE] ++ leBytes 4 v ∧ (varintEncode v).length = 5) ∧
    (0x100000000 ≤ v → varintEncode v = [0xFF] ++ leBytes 8 v ∧ (varintEncode v).length = 9)

/-- Rule R107: every 64-bit value comes back from its encoding, whatever bytes follow; and as commands, VARINT.ENC, the
appended bytes moved to RX, VARINT.DEC restores VAL with ERR = 0x00 and takes exactly those bytes. -/
def Obligations.VarintRoundTrip : Prop :=
  (∀ v t, v < 2 ^ 64 → varintDecode (varintEncode v ++ t) = .ok v (varintEncode v).length) ∧
  (∀ (s u : State) (r : List Byte), ∃ s' bs, exec .varintEnc s = .next s' ∧ s'.txq = s.txq ++ bs ∧
    (u.rxq = bs ++ r → ∃ u', exec .varintDec u = .next u' ∧ u'.val = s.val ∧ u'.err = 0x00 ∧ u'.rxq = r))

/-- Rule R108: the decoder accepts `n` bytes as `v` if and only if they are the encoding of `v`, so each value has one
accepted encoding. -/
def Obligations.VarintEncodingIsUnique : Prop :=
  ∀ (s : List Byte) (v n : Nat), varintDecode s = .ok v n ↔
    v < 2 ^ 64 ∧ n = (varintEncode v).length ∧ s.take n = varintEncode v

/-- Rules R83 and R102: a value written with a longer form than it needs is rejected, with all of that form's bytes
consumed. -/
def Obligations.LongerFormsAreRejected : Prop :=
  ∀ (v : Nat) (t : List Byte),
    (v < 0xFD → varintDecode (0xFD :: leBytes 2 v ++ t) = .err .protoNoncanonicalVarint 3) ∧
    (v < 0x10000 → varintDecode (0xFE :: leBytes 4 v ++ t) = .err .protoNoncanonicalVarint 5) ∧
    (v < 0x100000000 → varintDecode (0xFF :: leBytes 8 v ++ t) = .err .protoNoncanonicalVarint 9)

/-- Rule R103: VARINT.ENC appends the encoding of VAL, reports success and changes nothing else. It cannot fail and never
holds. -/
def Obligations.VarintEncAppendsTheEncoding : Prop :=
  decode 0x10 = .ok .varintEnc ∧ ∀ s : State, ∃ t, exec .varintEnc s = .next t ∧ t.txq = s.txq ++ varintEncode s.val.toNat ∧ EndsWith .ok s t ∧
    RegsKept [] s t ∧ FlagsKept s t ∧ DbufKeptFrom 0 s t ∧ t.rxq = s.rxq

/-- Rule R105: VARINT.DEC by the outcome of the decoder on RX. A value goes to VAL and its bytes leave RX; all
the bytes of a non-canonical encoding leave RX too, and VAL stays as it was; a short input holds, or at end of stream empties RX. A
hold as a next state equal to the one before is the model's convention (log entry 3). -/
def Obligations.VarintDecFollowsTheDecoder : Prop :=
  decode 0x20 = .ok .varintDec ∧ ∀ s : State,
    (∀ v n, varintDecode s.rxq = .ok v n → ∃ t, exec .varintDec s = .next t ∧ t.val.toNat = v ∧
      t.rxq = s.rxq.drop n ∧ EndsWith .ok s t ∧ RegsKept [.val] s t ∧ FlagsKept s t ∧ DbufKeptFrom 0 s t ∧
      t.txq = s.txq) ∧
    (∀ c n, varintDecode s.rxq = .err c n → c = .protoNoncanonicalVarint ∧ ∃ t, exec .varintDec s = .next t ∧
      t.rxq = s.rxq.drop n ∧ EndsWith c s t ∧ RegsKept [] s t ∧ FlagsKept s t ∧ DbufKeptFrom 0 s t ∧
      t.txq = s.txq) ∧
    (varintDecode s.rxq = .short → s.rxEof = true → ∃ t, exec .varintDec s = .next t ∧ t.rxq = [] ∧
      EndsWith .ioShortRead s t ∧ RegsKept [] s t ∧ FlagsKept s t ∧ DbufKeptFrom 0 s t ∧ t.txq = s.txq) ∧
    (varintDecode s.rxq = .short → s.rxEof = false → exec .varintDec s = .next s)

/-! ### Varstrings -/

/-- Rule R121: every byte sequence up to the bound comes back from its varstring, whatever bytes follow. -/
def Obligations.VarstrRoundTrip : Prop :=
  ∀ b t : List Byte, b.length ≤ 33554432 →
    varstrDecode (varstrEncode b ++ t) = .ok b ((varintEncode b.length).length + b.length)

/-- A varstring has one accepted encoding (rules R108, R115, R116): the decoder accepts `m` bytes as `b` exactly when `b` is
within the bound and those bytes are its encoding. -/
def Obligations.VarstrEncodingIsUnique : Prop :=
  ∀ (s b : List Byte) (m : Nat), varstrDecode s = .ok b m ↔
    b.length ≤ 33554432 ∧ m = (varstrEncode b).length ∧ s.take m = varstrEncode b

/-- Rule R122: a forged length is rejected after a prefix of 5 or 9 bytes, with no byte of DBUF and not DLEN changed; and
no input makes VARSTR.DEC store at an address of 33554432 or above. -/
def Obligations.ForgedLengthHasBoundedEffect : Prop :=
  (∀ (s : State) (n : Nat), varstrDecode s.rxq = .err .protoVarstringTooLong n → (n = 5 ∨ n = 9) ∧
    ∃ t, exec .varstrDec s = .next t ∧ t.err = 0x22 ∧ t.dlen = s.dlen ∧ DbufKeptFrom 0 s t) ∧
  (∀ s t : State, exec .varstrDec s = .next t → DbufKeptFrom 33554432 s t ∧
    ∀ c ∈ t.dbuf, c ∈ s.dbuf ∨ c.1 < 33554432)

/-- Rule R123: the length is compared with the bound as a whole 64-bit number, before it is narrowed to the 26 bits of
DLEN: no length above 33554432 is accepted, 2^32 + 5 among them. -/
def Obligations.LengthIsComparedBeforeNarrowing : Prop :=
  ∀ (l : Nat) (t : List Byte), 33554432 < l → l < 2 ^ 64 →
    varstrDecode (varintEncode l ++ t) = .err .protoVarstringTooLong (varintEncode l).length

/-- Rule R117: VARSTR.ENC appends the encoding of DLEN and the bytes `DBUF[0..DLEN)`, reports success and changes nothing
else. -/
def Obligations.VarstrEncAppendsPrefixAndBody : Prop :=
  decode 0x30 = .ok .varstrEnc ∧ ∀ s : State, s.dlen.toNat ≤ 33554432 → ∃ t body, exec .varstrEnc s = .next t ∧
    t.txq = s.txq ++ (varintEncode s.dlen.toNat ++ body) ∧ body.length = s.dlen.toNat ∧
    (∀ a, a < s.dlen.toNat → body[a]? = some (s.dbufByte a)) ∧ EndsWith .ok s t ∧
    RegsKept [] s t ∧ FlagsKept s t ∧ DbufKeptFrom 0 s t ∧ t.rxq = s.rxq

/-- Rule R119: VARSTR.DEC by the outcome of the decoder on RX. A body is stored from address 0 with its length in DLEN
and every byte above it as before; an error takes the prefix from RX and changes neither DBUF nor DLEN; a
short input holds, or at end of stream empties RX, with DLEN 0 and the bytes below the announced length unspecified when
the prefix had been accepted. A hold as a next state equal to the one before is the model's convention (log entry 3). -/
def Obligations.VarstrDecFollowsTheDecoder : Prop :=
  decode 0x40 = .ok .varstrDec ∧ ∀ s : State,
    (∀ b m, varstrDecode s.rxq = .ok b m → ∃ t, exec .varstrDec s = .next t ∧ t.rxq = s.rxq.drop m ∧
      t.dlen.toNat = b.length ∧ (∀ a, a < b.length → b[a]? = some (t.dbufByte a)) ∧ DbufKeptFrom b.length s t ∧
      EndsWith .ok s t ∧ RegsKept [.dlen] s t ∧ FlagsKept s t ∧ t.txq = s.txq) ∧
    (∀ c n, varstrDecode s.rxq = .err c n → (c = .protoNoncanonicalVarint ∨ c = .protoVarstringTooLong) ∧
      ∃ t, exec .varstrDec s = .next t ∧ t.rxq = s.rxq.drop n ∧ EndsWith c s t ∧ RegsKept [] s t ∧ FlagsKept s t ∧
      DbufKeptFrom 0 s t ∧ t.txq = s.txq) ∧
    (varstrDecode s.rxq = .short → s.rxEof = true → ∃ t, exec .varstrDec s = .next t ∧ t.rxq = [] ∧
      EndsWith .ioShortRead s t ∧ FlagsKept s t ∧ t.txq = s.txq ∧
      (∀ l n, varintDecode s.rxq = .ok l n → t.dlen = 0 ∧ DbufKeptFrom l s t ∧ RegsKept [.dlen] s t) ∧
      (varintDecode s.rxq = .short → DbufKeptFrom 0 s t ∧ RegsKept [] s t)) ∧
    (varstrDecode s.rxq = .short → s.rxEof = false → exec .varstrDec s = .next s)

/-! ### NetAddresses -/

/-- Rules R130, R132 and R137: a timestamp is carried when T = 1 and PVER >= TSVER; a NetAddress comes back from its
encoding, the timestamp as 0 when there is none, from 30 or 26 bytes, whatever bytes follow. -/
def Obligations.NetaddrRoundTrip : Prop :=
  (∀ (t : Bool) (pver tsver : Word), hasTs t pver tsver = true ↔ t = true ∧ tsver.toNat ≤ pver.toNat) ∧
  ∀ (ts : Bool) (a : NetAddr) (t : List Byte),
    netaddrDecode ts (netaddrEncode ts a ++ t) =
      .ok { a with time := if ts then a.time else 0 } (if ts then 30 else 26) ∧
    (netaddrEncode ts a).length = if ts then 30 else 26

/-- Rules R130, R132 and R133: NETADDR.ENC appends the timestamp only when T = 1 and PVER is at or above TSVER as unsigned
numbers, then the services little-endian, the IP as it stands and the port big-endian; it reports success and changes
nothing else. -/
def Obligations.NetaddrEncAppendsTheRecord : Prop :=
  decode 0x50 = .ok (.netaddrEnc false) ∧ decode 0x51 = .ok (.netaddrEnc true) ∧
  ∀ (s : State) (t : Bool), ∃ u, exec (.netaddrEnc t) s = .next u ∧
    u.txq = s.txq ++ ((if t = true ∧ s.tsver.toNat ≤ s.pver.toNat then leBytes 4 s.naTime.toNat else []) ++
      leBytes 8 s.naSvc.toNat ++ s.naIp.toList ++ beBytes 2 s.naPort.toNat) ∧
    EndsWith .ok s u ∧ RegsKept [] s u ∧ FlagsKept s u ∧ DbufKeptFrom 0 s u ∧ u.rxq = s.rxq

/-- Rules R134, R135 and R138: NETADDR.DEC on 26 bytes, or on 30 when a timestamp is due, writes the four registers
and NATS from them; on fewer it holds, or at end of stream empties RX and writes none of them. It raises no other
error. A hold as a next state equal to the one before is the model's convention (log entry 3). -/
def Obligations.NetaddrDecReadsTheRecord : Prop :=
  decode 0x60 = .ok (.netaddrDec false) ∧ decode 0x61 = .ok (.netaddrDec true) ∧
  ∀ (s : State) (t ts : Bool) (k : Nat), (ts = true ↔ t = true ∧ s.tsver.toNat ≤ s.pver.toNat) →
    k = (if ts then 4 else 0) →
    (k + 26 ≤ s.rxq.length → ∃ u, exec (.netaddrDec t) s = .next u ∧
      u.naTime.toNat = (if ts then le (slice s.rxq 0 4) else 0) ∧ u.naSvc.toNat = le (slice s.rxq k (k + 8)) ∧
      u.naIp.toList = slice s.rxq (k + 8) (k + 24) ∧ u.naPort.toNat = be (slice s.rxq (k + 24) (k + 26)) ∧
      u.nats = ts ∧ u.rxq = s.rxq.drop (k + 26) ∧ EndsWith .ok s u ∧
      RegsKept [.naTime, .naSvc, .naIp, .naPort] s u ∧ u.drainshort = s.drainshort ∧ DbufKeptFrom 0 s u ∧
      u.txq = s.txq) ∧
    (s.rxq.length < k + 26 → s.rxEof = true → ∃ u, exec (.netaddrDec t) s = .next u ∧ u.rxq = [] ∧
      EndsWith .ioShortRead s u ∧ RegsKept [] s u ∧ FlagsKept s u ∧ DbufKeptFrom 0 s u ∧ u.txq = s.txq) ∧
    (s.rxq.length < k + 26 → s.rxEof = false → exec (.netaddrDec t) s = .next s)

/-! ### Digest and checksum -/

/-- Rule R160: the known digests and checksums of the empty sequence and of "abc". That the digest is SHA-256 is log
entry 12. -/
def Obligations.KnownChecksums : Prop :=
  sha256 [] = beBytes 32 0xE3B0C44298FC1C149AFBF4C8996FB92427AE41E4649B934CA495991B7852B855 ∧
  sha256 (sha256 []) = beBytes 32 0x5DF6E0E2761359D30A8275058E299FCC0381534545F55CF43E41983F5D4C9456 ∧
  (checksum []).toList = [0x5D, 0xF6, 0xE0, 0xE2] ∧
  sha256 [0x61, 0x62, 0x63] = beBytes 32 0xBA7816BF8F01CFEA414140DE5DAE2223B00361A396177A9CB410FF61F20015AD ∧
  sha256 (sha256 [0x61, 0x62, 0x63]) =
    beBytes 32 0x4F8B42C22DD3729B519BA6F68D2DA7CC5B2D606D05DAED5AD5128CC03E6C6358 ∧
  (checksum [0x61, 0x62, 0x63]).toList = [0x4F, 0x8B, 0x42, 0xC2]

/-- Rule R146: the checksum is the first four bytes of the digest applied twice, in the order the digest produced them;
a digest has 32 bytes, whatever the input (rule R145). -/
def Obligations.ChecksumIsTheFrontOfTheDoubleDigest : Prop :=
  ∀ b : List Byte, (sha256 b).length = 32 ∧ (checksum b).toList = (sha256 (sha256 b)).take 4

/-- Rule R155: the padded message is the message, 0x80, `k` zero bytes with `k = (55 - L) mod 64`, and the length in
bits as eight bytes; it is a whole number of blocks, one or two at the lengths the rule names. That the digest is
SHA-256 is log entry 12. -/
def Obligations.PaddingFillsWholeBlocks : Prop :=
  (∀ m : List Byte, ∃ k, k < 64 ∧ (m.length + k) % 64 = 55 ∧
    shaPad m = m ++ [0x80] ++ List.replicate k 0 ++ beBytes 8 (8 * m.length) ∧
    (shaPad m).length = m.length + 1 + k + 8 ∧ (shaPad m).length % 64 = 0) ∧
  (∀ m : List Byte, (m.length = 0 → (shaPad m).length = 64) ∧ (m.length = 55 → (shaPad m).length = 64) ∧
    (m.length = 56 → (shaPad m).length = 128) ∧ (m.length = 32 → (shaPad m).length = 64))

/-- Rule R148: CKSUM.GEN puts the checksum of `DBUF[0..DLEN)` in CK, reports success and changes nothing else. -/
def Obligations.CksumGenWritesCk : Prop :=
  decode 0x70 = .ok .cksumGen ∧ ∀ s : State, s.dlen.toNat ≤ 33554432 → ∃ t body, exec .cksumGen s = .next t ∧ body.length = s.dlen.toNat ∧
    (∀ a, a < s.dlen.toNat → body[a]? = some (s.dbufByte a)) ∧ t.ck = checksum body ∧ EndsWith .ok s t ∧
    RegsKept [.ck] s t ∧ FlagsKept s t ∧ DbufKeptFrom 0 s t ∧ StreamsKept s t

/-- Rule R149: CKSUM.VFY puts the checksum of `DBUF[0..DLEN)` in CK, on a match and on a mismatch alike, and reports
FRAME_CHECKSUM_MISMATCH exactly when it differs from H_CKSUM in any byte. -/
def Obligations.CksumVfyComparesFourBytes : Prop :=
  decode 0x80 = .ok .cksumVfy ∧ ∀ s : State, s.dlen.toNat ≤ 33554432 → ∃ t body, exec .cksumVfy s = .next t ∧ body.length = s.dlen.toNat ∧
    (∀ a, a < s.dlen.toNat → body[a]? = some (s.dbufByte a)) ∧ t.ck = checksum body ∧
    (checksum body = s.hCksum → EndsWith .ok s t) ∧
    (checksum body ≠ s.hCksum → EndsWith .frameChecksumMismatch s t) ∧
    RegsKept [.ck] s t ∧ FlagsKept s t ∧ DbufKeptFrom 0 s t ∧ StreamsKept s t

/-! ### Headers -/

/-- Rule R175: the fields extracted from 24 bytes are those slices, and laid out again they are those bytes. -/
def Obligations.HeaderFieldsAreTheBytes : Prop :=
  ∀ q : List Byte, q.length = 24 →
    (headerOf q).magic.toList = slice q 0 4 ∧ (headerOf q).cmd.toList = slice q 4 16 ∧
    (headerOf q).size.toNat = le (slice q 16 20) ∧ (headerOf q).cksum.toList = slice q 20 24 ∧
    headerBytes (headerOf q) = q

/-- Rule R176: `strip_zeros(c)` is the longest prefix of `c` that is empty or does not end in 0x00. -/
def Obligations.StripZerosIsTheLongestPrefix : Prop :=
  ∀ c p : List Byte, p = stripZeros c ↔
    (p <+: c ∧ (p = [] ∨ p.getLast? ≠ some 0) ∧
      ∀ p', p' <+: c → (p' = [] ∨ p'.getLast? ≠ some 0) → p'.length ≤ p.length)

/-- Rule R171: HDR.BUILD with CMD_LEN at most 12 fills the header registers for the payload `DBUF[0..DLEN)`,
with the true length as size; with CMD_LEN above 12 it reports CMD_BAD_OPERAND and writes no register. -/
def Obligations.HdrBuildFillsTheHeader : Prop :=
  decode 0x90 = .ok .hdrBuild ∧ ∀ s : State,
    (s.cmdLen.toNat ≤ 12 → s.dlen.toNat ≤ 33554432 → ∃ t body, exec .hdrBuild s = .next t ∧
      body.length = s.dlen.toNat ∧ (∀ a, a < s.dlen.toNat → body[a]? = some (s.dbufByte a)) ∧
      t.hMagic = s.magic ∧
      t.hCmd.toList = s.hCmd.toList.take s.cmdLen.toNat ++ List.replicate (12 - s.cmdLen.toNat) 0 ∧
      t.hSize.toNat = s.dlen.toNat ∧ t.hCksum = checksum body ∧ EndsWith .ok s t ∧
      RegsKept [.hMagic, .hCmd, .hSize, .hCksum] s t ∧ FlagsKept s t ∧ DbufKeptFrom 0 s t ∧ StreamsKept s t) ∧
    (12 < s.cmdLen.toNat →
      exec .hdrBuild s = .next { s with err := 0xF2, esticky := true, busy := false })

/-- Rule R173: HDR.ENC appends the 24 bytes of the header registers as they stand, reports success and changes nothing
else. -/
def Obligations.HdrEncAppendsTheHeader : Prop :=
  decode 0xA0 = .ok .hdrEnc ∧ ∀ s : State, ∃ t, exec .hdrEnc s = .next t ∧
    t.txq = s.txq ++ (s.hMagic.toList ++ s.hCmd.toList ++ leBytes 4 s.hSize.toNat ++ s.hCksum.toList) ∧
    t.txq.length = s.txq.length + 24 ∧ EndsWith .ok s t ∧
    RegsKept [] s t ∧ FlagsKept s t ∧ DbufKeptFrom 0 s t ∧ t.rxq = s.rxq

/-- Rule R181: HDR.DEC, branch by branch. Fewer than 24 bytes hold, or at end of stream give IO_EOF (none) or
IO_SHORT_READ (1 to 23). With 24 bytes: a size above the bound is reported first and nothing is drained; then a
foreign magic, then a command that is not valid text, each with the payload drained, or with DRAINSHORT = 1 when the
stream ends inside the drain, or with a hold; a valid header leaves the payload in RX. Whenever it completes with 24
bytes read, the header registers and CMD_LEN hold the header. A hold as a next state equal to the one before is the
model's convention (log entry 3), and the reading of valid text is log entry 13. -/
def Obligations.HdrDecFollowsTheContract : Prop :=
  decode 0xB0 = .ok .hdrDec ∧ ∀ s : State,
    (s.rxq.length < 24 → s.rxEof = false → exec .hdrDec s = .next s) ∧
    (s.rxq.length < 24 → s.rxEof = true → ∃ t, exec .hdrDec s = .next t ∧ t.rxq = [] ∧ t.drainshort = false ∧
      EndsWith (if s.rxq.length = 0 then .ioEof else .ioShortRead) s t ∧ RegsKept [] s t ∧ t.nats = s.nats ∧
      DbufKeptFrom 0 s t ∧ t.txq = s.txq) ∧
    (24 ≤ s.rxq.length → 33554432 < le (slice s.rxq 16 20) → ∃ t, exec .hdrDec s = .next t ∧
      t.rxq = s.rxq.drop 24 ∧ Latched s.rxq t ∧ t.drainshort = false ∧ EndsWith .framePayloadTooLarge s t ∧
      RegsKept [.hMagic, .hCmd, .hSize, .hCksum, .cmdLen] s t ∧ t.nats = s.nats ∧ DbufKeptFrom 0 s t ∧
      t.txq = s.txq) ∧
    (24 ≤ s.rxq.length → le (slice s.rxq 16 20) ≤ 33554432 → failedValidation s.magic s.rxq = none →
      ∃ t, exec .hdrDec s = .next t ∧ t.rxq = s.rxq.drop 24 ∧ Latched s.rxq t ∧ t.drainshort = false ∧
      EndsWith .ok s t ∧ RegsKept [.hMagic, .hCmd, .hSize, .hCksum, .cmdLen] s t ∧ t.nats = s.nats ∧
      DbufKeptFrom 0 s t ∧ t.txq = s.txq) ∧
    (∀ e, 24 ≤ s.rxq.length → le (slice s.rxq 16 20) ≤ 33554432 → failedValidation s.magic s.rxq = some e →
      24 + le (slice s.rxq 16 20) ≤ s.rxq.length → ∃ t, exec .hdrDec s = .next t ∧
      t.rxq = s.rxq.drop (24 + le (slice s.rxq 16 20)) ∧ Latched s.rxq t ∧ t.drainshort = false ∧ EndsWith e s t ∧
      RegsKept [.hMagic, .hCmd, .hSize, .hCksum, .cmdLen] s t ∧ t.nats = s.nats ∧ DbufKeptFrom 0 s t ∧
      t.txq = s.txq) ∧
    (∀ e, 24 ≤ s.rxq.length → le (slice s.rxq 16 20) ≤ 33554432 → failedValidation s.magic s.rxq = some e →
      s.rxq.length < 24 + le (slice s.rxq 16 20) → s.rxEof = true → ∃ t, exec .hdrDec s = .next t ∧ t.rxq = [] ∧
      Latched s.rxq t ∧ t.drainshort = true ∧ EndsWith e s t ∧
      RegsKept [.hMagic, .hCmd, .hSize, .hCksum, .cmdLen] s t ∧ t.nats = s.nats ∧ DbufKeptFrom 0 s t ∧
      t.txq = s.txq) ∧
    (∀ e, 24 ≤ s.rxq.length → le (slice s.rxq 16 20) ≤ 33554432 → failedValidation s.magic s.rxq = some e →
      s.rxq.length < 24 + le (slice s.rxq 16 20) → s.rxEof = false → exec .hdrDec s = .next s)

/-- Rule R183: no input makes HDR.DEC wait for, or drop, more than 24 + 33554432 bytes. -/
def Obligations.HdrDecIsBounded : Prop :=
  (∀ s t : State, exec .hdrDec s = .next t → ∃ n, n ≤ 24 + 33554432 ∧ t.rxq = s.rxq.drop n) ∧
  (∀ s : State, 24 + 33554432 ≤ s.rxq.length → ∃ t, exec .hdrDec s = .next t ∧ t.busy = false)

/-- Rule R184: after a header that fails with FRAME_WRONG_NETWORK or FRAME_INVALID_COMMAND, and whose payload of the size
it announces is queued, RX is exactly what follows that payload and DRAINSHORT = 0. -/
def Obligations.FailedHeaderLeavesTheStreamAligned : Prop :=
  ∀ (s t : State) (h p r : List Byte), s.rxq = h ++ p ++ r → h.length = 24 → le (slice h 16 20) = p.length →
    p.length ≤ 33554432 → exec .hdrDec s = .next t → t.err = 0x11 ∨ t.err = 0x13 →
    t.rxq = r ∧ t.drainshort = false

/-- Rule R185: a header that HDR.DEC would accept comes back from the 24 bytes HDR.ENC appended, with ERR = 0x00, and
CMD_LEN is the length of its stripped command. The reading of valid text is log entry 13. -/
def Obligations.HeaderRoundTrip : Prop :=
  ∀ (s u : State) (r : List Byte), s.hMagic = s.magic → s.hSize.toNat ≤ 33554432 →
    validText (stripZeros s.hCmd.toList) = true → u.magic = s.magic →
    ∃ s' bs, exec .hdrEnc s = .next s' ∧ s'.txq = s.txq ++ bs ∧ bs.length = 24 ∧
      (u.rxq = bs ++ r → ∃ u', exec .hdrDec u = .next u' ∧ u'.hMagic = s.hMagic ∧ u'.hCmd = s.hCmd ∧
        u'.hSize = s.hSize ∧ u'.hCksum = s.hCksum ∧ u'.err = 0x00 ∧
        u'.cmdLen.toNat = (stripZeros s.hCmd.toList).length ∧ u'.rxq = r)

/-! ### Payload transfer and system commands -/

/-- Rule R196: BODY.RD tests the bound first; then it moves exactly H_SIZE bytes to DBUF from address 0, with DLEN
that number and every byte above as before; with too few it holds, or at end of stream empties RX, with DLEN 0 and the
bytes below H_SIZE unspecified. A hold as a next state equal to the one before is the model's convention (log entry
3). -/
def Obligations.BodyRdMovesExactlyTheBody : Prop :=
  decode 0xC0 = .ok .bodyRd ∧ ∀ s : State,
    (33554432 < s.hSize.toNat →
      exec .bodyRd s = .next { s with err := 0x12, esticky := true, busy := false }) ∧
    (s.hSize.toNat ≤ 33554432 → s.hSize.toNat ≤ s.rxq.length → ∃ t, exec .bodyRd s = .next t ∧
      (∀ a, a < s.hSize.toNat → s.rxq[a]? = some (t.dbufByte a)) ∧ DbufKeptFrom s.hSize.toNat s t ∧
      t.dlen.toNat = s.hSize.toNat ∧ t.rxq = s.rxq.drop s.hSize.toNat ∧ EndsWith .ok s t ∧
      RegsKept [.dlen] s t ∧ FlagsKept s t ∧ t.txq = s.txq) ∧
    (s.hSize.toNat ≤ 33554432 → s.rxq.length < s.hSize.toNat → s.rxEof = true → ∃ t, exec .bodyRd s = .next t ∧
      t.rxq = [] ∧ t.dlen = 0 ∧ DbufKeptFrom s.hSize.toNat s t ∧ EndsWith .ioShortRead s t ∧
      RegsKept [.dlen] s t ∧ FlagsKept s t ∧ t.txq = s.txq) ∧
    (s.hSize.toNat ≤ 33554432 → s.rxq.length < s.hSize.toNat → s.rxEof = false → exec .bodyRd s = .next s)

/-- Rule R198: BODY.WR appends the bytes `DBUF[0..DLEN)`, reports success and changes nothing else; it does not look at
H_SIZE. -/
def Obligations.BodyWrAppendsTheBody : Prop :=
  decode 0xD0 = .ok .bodyWr ∧ ∀ s : State, s.dlen.toNat ≤ 33554432 → ∃ t body, exec .bodyWr s = .next t ∧ t.txq = s.txq ++ body ∧
    body.length = s.dlen.toNat ∧ (∀ a, a < s.dlen.toNat → body[a]? = some (s.dbufByte a)) ∧ EndsWith .ok s t ∧
    RegsKept [] s t ∧ FlagsKept s t ∧ DbufKeptFrom 0 s t ∧ t.rxq = s.rxq

/-- Rule R199: BODY.WR, the bytes moved to RX, BODY.RD with H_SIZE the DLEN of the sender: the same bytes and the same
length stand in DBUF. -/
def Obligations.BodyRoundTrip : Prop :=
  ∀ (s u : State) (r : List Byte), s.dlen.toNat ≤ 33554432 → u.hSize.toNat = s.dlen.toNat →
    ∃ s' bs, exec .bodyWr s = .next s' ∧ s'.txq = s.txq ++ bs ∧
      (u.rxq = bs ++ r → ∃ u', exec .bodyRd u = .next u' ∧ u'.err = 0x00 ∧ u'.dlen = s.dlen ∧ u'.rxq = r ∧
        ∀ a, a < s.dlen.toNat → u'.dbufByte a = s.dbufByte a)

/-- Rules R205 and R206: NOP writes ERR and clears BUSY; CLRERR does that and clears ESTICKY; neither touches anything
else, end of stream, DRAINSHORT and NATS among them. -/
def Obligations.SystemCommandsTouchStatusOnly : Prop :=
  decode 0x00 = .ok .nop ∧ decode 0xE0 = .ok .clrerr ∧
  ∀ s : State, exec .nop s = .next { s with err := 0x00, busy := false } ∧
    exec .clrerr s = .next { s with err := 0x00, esticky := false, busy := false }

/-! ### The host's side -/

/-- Rule R48: a write of CMD while BUSY = 0 latches bits 7:0 of the word and sets BUSY, and nothing else changes. -/
def Obligations.IssueLatchesTheWord : Prop :=
  ∀ (s : State) (w : Word), s.busy = false →
    hostAct (.issue w) s = .next { s with cmdl := w.setWidth 8, busy := true } ∧
    hostAct (.busWrite 4 0x00 w) s = .next { s with cmdl := w.setWidth 8, busy := true }

/-- Registers by name (rules R25, R28, R35, R45, R46): with BUSY = 0 what was written is what is read, no other register
and nothing else moves, STATUS and CK ignore a write and so does DLEN for a value above 33554432; a read, whether BUSY is 0
or 1, returns the register's current value and changes no element of the block. -/
def Obligations.NamedRegistersReadBack : Prop :=
  (∀ (s : State) (v : RegValue), s.busy = false →
    hostAct (.writeReg v) s = .next (s.writeReg v) ∧
    (v.name ≠ .status → v.name ≠ .ck → (∀ d, v = .dlen d → d.toNat ≤ 33554432) →
      (s.writeReg v).readReg v.name = v) ∧
    (v.name = .status ∨ v.name = .ck ∨ (∃ d, v = .dlen d ∧ 33554432 < d.toNat) → s.writeReg v = s) ∧
    (∀ r, r ≠ v.name → (s.writeReg v).readReg r = s.readReg r) ∧ s.withHostRegs (s.writeReg v) = s.writeReg v) ∧
  (∀ (s : State) (r : RegName), hostAct (.readReg r) s = .next { s with hostData := .reg (s.readReg r) }) ∧
  ∀ s : State, s.readReg .status = .status (statusWord s) ∧ s.readReg .magic = .magic s.magic ∧
    s.readReg .pver = .pver s.pver ∧ s.readReg .tsver = .tsver s.tsver ∧ s.readReg .val = .val s.val ∧
    s.readReg .naTime = .naTime s.naTime ∧ s.readReg .naSvc = .naSvc s.naSvc ∧ s.readReg .naIp = .naIp s.naIp ∧
    s.readReg .naPort = .naPort s.naPort ∧ s.readReg .hMagic = .hMagic s.hMagic ∧ s.readReg .hCmd = .hCmd s.hCmd ∧
    s.readReg .hSize = .hSize s.hSize ∧ s.readReg .hCksum = .hCksum s.hCksum ∧
    s.readReg .cmdLen = .cmdLen s.cmdLen ∧ s.readReg .ck = .ck s.ck ∧ s.readReg .dlen = .dlen s.dlen ∧
    s.readReg .daddr = .daddr s.daddr

/-- Rule R250: while BUSY = 1, writes of CMD, of the registers and through DDATA change nothing; a read of DDATA, by name
or at its offset, moves neither DADDR nor DBUF; RXDATA, RXCTL and TXDATA work as they do while BUSY = 0. That a busy read of DDATA uses up a
draw is the model's (log entry 7). -/
def Obligations.WritesWhileBusyAreIgnored : Prop :=
  (∀ (s : State) (v : RegValue) (b : Byte) (w : Word) (r : BusReg), s.busy = true →
    hostAct (.writeReg v) s = .next s ∧ hostAct (.dbufWrite b) s = .next s ∧ hostAct (.issue w) s = .next s ∧
    (r ≠ .rxdata → r ≠ .rxctl → s.busStore r w = s)) ∧
  (∀ s : State, s.busy = true → ∀ act ∈ [HostAction.busRead 4 0x64, .dbufRead], ∃ t, hostAct act s = .next t ∧
    { s with hostData := t.hostData, nextDraw := t.nextDraw } = t) ∧
  (∀ (s : State) (b : Byte), hostAct (.rxPush b) { s with busy := true } =
      .next { (if s.rxEof then s else { s with rxq := s.rxq ++ [b] }) with busy := true } ∧
    hostAct .rxEof { s with busy := true } = .next { s with busy := true, rxEof := true } ∧
    ∃ d, hostAct .txPop s = .next { s with txq := s.txq.drop 1, hostData := d } ∧
      hostAct .txPop { s with busy := true } = .next { s with busy := true, txq := s.txq.drop 1, hostData := d })

/-- Rules R36 and R46(c): with BUSY = 0 a write of DDATA stores the byte at DADDR, a read of DDATA returns `DBUF[DADDR]`
in bits 7:0 of a word, each then moves DADDR on modulo 2^25, neither changes DLEN, and so do the actions DbufWrite and
DbufRead; a write of DADDR keeps bits 24:0. -/
def Obligations.DataWindowMovesOn : Prop :=
  ∀ s : State, s.busy = false →
    (∀ w : Word, ∀ act ∈ [HostAction.busWrite 4 0x64 w, .dbufWrite (w.setWidth 8)], ∃ t, hostAct act s = .next t ∧
      t.dbufByte s.daddr.toNat = w.setWidth 8 ∧ (∀ a, a ≠ s.daddr.toNat → t.dbufByte a = s.dbufByte a) ∧
      t.daddr.toNat = (s.daddr.toNat + 1) % 2 ^ 25 ∧ { s with dbuf := t.dbuf, daddr := t.daddr } = t) ∧
    (∀ act ∈ [HostAction.busRead 4 0x64, .dbufRead], ∃ t, hostAct act s = .next t ∧
      t.hostData = .word ((s.dbufByte s.daddr.toNat).setWidth 32) ∧
      t.daddr.toNat = (s.daddr.toNat + 1) % 2 ^ 25 ∧ { s with hostData := t.hostData, daddr := t.daddr } = t) ∧
    (∀ w : Word, ∃ t, hostAct (.busWrite 4 0x60 w) s = .next t ∧ t.daddr.toNat = w.toNat % 2 ^ 25 ∧
      { s with daddr := t.daddr } = t)

/-- Rule R40: the three stream registers. A write of RXDATA appends bits 7:0 unless end of stream was declared; RXCTL sets
end of stream by bit 0 and reads it; a read of TXDATA takes the front byte with bit 8 set, or returns 0 from an empty
queue. The actions RxPush, RxEof and TxPop do the same. The bits above RXCTL's one and TXDATA's nine read 0 (rule R62). -/
def Obligations.StreamRegisters : Prop :=
  (∀ (s : State) (w : Word), ∀ act ∈ [HostAction.busWrite 4 0x68 w, .rxPush (w.setWidth 8)], hostAct act s =
    .next (if s.rxEof then s else { s with rxq := s.rxq ++ [w.setWidth 8] })) ∧
  (∀ (s : State) (w : Word), hostAct (.busWrite 4 0x6C w) s =
    .next (if w.getLsbD 0 then { s with rxEof := true } else s)) ∧
  (∀ s : State, hostAct .rxEof s = .next { s with rxEof := true }) ∧
  (∀ s : State, ∃ w : Word, hostAct (.busRead 4 0x6C) s = .next { s with hostData := .word w } ∧
    w.getLsbD 0 = s.rxEof ∧ w.extractLsb' 1 31 = 0) ∧
  (∀ (s : State) (b : Byte) (q : List Byte), s.txq = b :: q → ∀ act ∈ [HostAction.busRead 4 0x70, .txPop],
    ∃ w : Word, hostAct act s = .next { s with txq := q, hostData := .word w } ∧
    w.getLsbD 8 = true ∧ w.extractLsb' 0 8 = b ∧ w.extractLsb' 9 23 = 0) ∧
  (∀ s : State, s.txq = [] → ∀ act ∈ [HostAction.busRead 4 0x70, .txPop],
    hostAct act s = .next { s with hostData := .word 0 })

/-- The register map of rule R62: the offsets of its table; a storage register reads back what was written, its bits
above the width as 0, no other register's value moves, and nothing that is no such register moves at all (STATUS, CK,
CMDL, DBUF, RX, TX), DLEN keeping its value when the one written is above 33554432; a write of a read-only register or a
reserved offset changes nothing, CMD and a reserved offset read 0, and only reads of DDATA and TXDATA change an element of
the block. That a bus write of DLEN takes bits 25:0 first is the model's reading (log entry 11). That a read of the
write-only RXDATA returns some byte, with bits 31:8 zero, and uses up a draw is the model's choice: no rule gives it a value
(log entry 20). -/
def Obligations.RegisterMapReadsBackWrites : Prop :=
  (∀ p ∈ busMap, BusReg.ofOffset p.1 = p.2) ∧ (∀ n, 0x74 ≤ n → BusReg.ofOffset n = .reserved) ∧
  (∀ (s : State) (n : Nat) (w : Word), n % 4 = 0 →
    hostAct (.busWrite 4 n w) s = .next (s.busStore (.ofOffset n) w) ∧ ∃ t, hostAct (.busRead 4 n) s = .next t ∧
    t.hostData = .word (s.busWord (.ofOffset n)) ∧
    { t with hostData := s.hostData } = s.busReadEffect (.ofOffset n)) ∧
  (∀ (s : State) (r : BusReg) (w : Word), s.busy = false → r ∈ busStorage →
    (s.busStore r w).busWord r =
      (if r = .dlen ∧ 33554432 < (w &&& busMask r).toNat then s.busWord r else w &&& busMask r) ∧
    (∀ r', r' ≠ r → ¬ (r = .daddr ∧ r' = .ddata) → (s.busStore r w).busWord r' = s.busWord r') ∧
    s.withHostRegs (s.busStore r w) = s.busStore r w) ∧
  (∀ (s : State) (r : BusReg) (w : Word), r ∈ [.status, .ck, .txdata, .reserved] → s.busStore r w = s) ∧
  (∀ (s : State) (r : BusReg), r ∈ [.cmd, .reserved] → s.busWord r = 0) ∧
  (∀ s : State, ∃ b : Byte, s.busWord .rxdata = b.setWidth 32) ∧
  (∀ (s : State) (r : BusReg), r ≠ .ddata → r ≠ .txdata →
    { s.busReadEffect r with nextDraw := s.nextDraw } = s ∧ (r ≠ .rxdata → s.busReadEffect r = s))

/-- Each register that a bus read returns without effect is the register of its name (rules R26, R62): the read at its
offset answers the register's own bits, `_LO` bits 31:0 and `_HI` bits 63:32 of a 64-bit register, byte `k` of a byte
array (CK among them) as bits `8k+7:8k` of its word and each further word of H_CMD and NA_IP the next four bytes, zeros
above the width, and the read changes no element of the block (rule R63). That the host's last read is kept in the
state is log entry 4. -/
def Obligations.BusWordsAreTheRegisters : Prop :=
  ∀ s : State, ∀ p ∈ mapWords s, hostAct (.busRead 4 p.1) s = .next { s with hostData := .word p.2 }

/-- Rule R61: a bus access of another width than 4 bytes or at an offset that is not a multiple of 4 is refused, and
by that name. The form of the refusal is log entry 10. Every other access succeeds: for those that the map of rule R62
allows this is rule R64; that a read of the write-only RXDATA (0x68) is allowed and succeeds is the model's choice (log entry
20). -/
def Obligations.BusAccessOutsideSpecIsRefused : Prop :=
  ∀ (s : State) (width offset : Nat) (v : Word),
    (width ≠ 4 ∨ offset % 4 ≠ 0 → hostAct (.busWrite width offset v) s = .refused .busAccessOutsideSpec ∧
      hostAct (.busRead width offset) s = .refused .busAccessOutsideSpec) ∧
    (offset % 4 = 0 → (∃ t, hostAct (.busWrite 4 offset v) s = .next t) ∧
      ∃ t, hostAct (.busRead 4 offset) s = .next t)

/-! ### A whole message -/

/-- MSG.SEND then MSG.RECV (rules R87, R93): an idle sender with a token that is valid text and a payload in DBUF runs
HDR.BUILD, HDR.ENC, BODY.WR without error; an idle receiver with the same MAGIC whose RX begins with the appended
bytes runs HDR.DEC, BODY.RD, CKSUM.VFY without error, and then holds the same payload, length and header, with the
checksum verified and RX at the byte after the message. That a sequence stops at a hold is log entry 18, and the
reading of valid text is log entry 13. -/
def Obligations.MessageSentIsMessageReceived : Prop :=
  ∀ s : State, s.busy = false → s.cmdLen.toNat ≤ 12 → s.dlen.toNat ≤ 33554432 →
    validText (stripZeros (s.hCmd.toList.take s.cmdLen.toNat)) = true →
    ∃ s' bs, runUntilError msgSend s = .next s' ∧ s'.err = 0x00 ∧ s'.busy = false ∧ s'.txq = s.txq ++ bs ∧
      bs.length = 24 + s.dlen.toNat ∧
      ∀ (u : State) (r : List Byte), u.busy = false → u.magic = s.magic → u.rxq = bs ++ r →
        ∃ t, runUntilError msgRecv u = .next t ∧ t.err = 0x00 ∧ t.busy = false ∧ t.esticky = u.esticky ∧ t.rxq = r ∧
          t.dlen = s.dlen ∧ (∀ a, a < s.dlen.toNat → t.dbufByte a = s.dbufByte a) ∧
          t.hMagic = s.magic ∧ t.hCmd = s'.hCmd ∧ t.hSize = s'.hSize ∧ t.hCksum = s'.hCksum ∧ t.ck = t.hCksum
end

