-- ==== Sys2Proof/Laws/Bytes.lean ====
section
/-! SUPPORT. Lemmas on byte layouts (`00_scope.md` rule R12): lengths, bounds, the two directions between a number and
its bytes, and byte arrays made from sequences. -/

namespace Sys2Proof.Machine

open Sys2Proof

@[simp] theorem le_nil : le [] = 0 := rfl

@[simp] theorem le_cons (b : Byte) (bs : List Byte) : le (b :: bs) = b.toNat + 256 * le bs := rfl

@[simp] theorem leBytes_zero (v : Nat) : leBytes 0 v = [] := rfl

@[simp] theorem leBytes_succ (n v : Nat) : leBytes (n + 1) v = BitVec.ofNat 8 v :: leBytes n (v / 256) := rfl

@[simp] theorem leBytes_length (n v : Nat) : (leBytes n v).length = n := by
  induction n generalizing v with
  | zero => rfl
  | succ n ih => simp [ih]

@[simp] theorem beBytes_length (n v : Nat) : (beBytes n v).length = n := by simp [beBytes]

theorem le_lt (s : List Byte) : le s < 256 ^ s.length := by
  induction s with
  | nil => simp
  | cons b bs ih =>
    have hb := b.isLt
    simp only [le_cons, List.length_cons, Nat.pow_succ]
    omega

theorem le_leBytes (n v : Nat) (h : v < 256 ^ n) : le (leBytes n v) = v := by
  induction n generalizing v with
  | zero => simp at h; simp [h]
  | succ n ih =>
    have hq : v / 256 < 256 ^ n := by
      apply Nat.div_lt_of_lt_mul
      rw [Nat.mul_comm]
      exact h
    simp only [leBytes_succ, le_cons, ih _ hq, BitVec.toNat_ofNat]
    omega

theorem leBytes_le (s : List Byte) : leBytes s.length (le s) = s := by
  induction s with
  | nil => rfl
  | cons b bs ih =>
    have hb := b.isLt
    have hq : (b.toNat + 256 * le bs) / 256 = le bs := by omega
    simp only [List.length_cons, le_cons, leBytes_succ, hq, ih, List.cons.injEq, and_true]
    apply BitVec.eq_of_toNat_eq
    simp only [BitVec.toNat_ofNat]
    omega

theorem be_beBytes (n v : Nat) (h : v < 256 ^ n) : be (beBytes n v) = v := by
  simp [be, beBytes, le_leBytes n v h]

theorem beBytes_be (s : List Byte) : beBytes s.length (be s) = s := by
  have h := leBytes_le s.reverse
  simp only [List.length_reverse] at h
  simp [be, beBytes, h]

theorem be_lt (s : List Byte) : be s < 256 ^ s.length := by
  simpa [be] using le_lt s.reverse

theorem slice_length (s : List Byte) (i j : Nat) (h : j ≤ s.length) : (slice s i j).length = j - i := by
  simp [slice]; omega

/-- The byte array made from a sequence of the right length is that sequence. -/
theorem bytesOf_toList (n : Nat) (s : List Byte) (h : s.length = n) : (bytesOf n s).toList = s := by
  simp [bytesOf, Vector.toList, ← h]

theorem bytesOf_eq (n : Nat) (s : List Byte) : (bytesOf n s).toList = s.take n ++ List.replicate (n - s.length) 0 := by
  simp [bytesOf, Vector.toList]

/-- A byte array is made again from its own bytes. -/
@[simp] theorem bytesOf_self {n : Nat} (a : Bytes n) : bytesOf n a.toList = a := by
  apply Vector.toList_inj.mp
  rw [bytesOf_toList n a.toList (by simp)]

end Sys2Proof.Machine
end

