-- ==== Sys2Proof/Laws/Decoders.lean ====
section
/-! SUPPORT. What each decoding function can answer, said once: the consumed bytes lie inside the input, results are in
range, and the error is the one the unit's rule names. -/

namespace Sys2Proof.Machine

open Sys2Proof Host

/-- The rest of a long varint form (`40_varint.md` rule R102). -/
theorem varintTail_cases (n lo : Nat) (rest : List Byte) :
    (rest.length < n ∧ varintTail n lo rest = .short) ∨
    (n ≤ rest.length ∧ le (rest.take n) < lo ∧ varintTail n lo rest = .err .protoNoncanonicalVarint (n + 1)) ∨
    (n ≤ rest.length ∧ lo ≤ le (rest.take n) ∧ varintTail n lo rest = .ok (le (rest.take n)) (n + 1)) := by
  unfold varintTail
  split
  · exact .inl ⟨‹_›, rfl⟩
  · split
    · exact .inr (.inl ⟨by omega, ‹_›, rfl⟩)
    · exact .inr (.inr ⟨by omega, by omega, rfl⟩)

/-- A varint decodes to a 64-bit value from bytes that are there (rules R102, R109). -/
theorem varintDecode_ok (s : List Byte) (v n : Nat) (h : varintDecode s = .ok v n) :
    v < 2 ^ 64 ∧ 1 ≤ n ∧ n ≤ s.length := by
  cases s with
  | nil => cases h
  | cons d rest =>
    have hd := d.isLt
    have tail : ∀ m lo, m ≤ 8 → varintTail m lo rest = .ok v n → v < 2 ^ 64 ∧ 1 ≤ n ∧ n ≤ (d :: rest).length := by
      intro m lo hm ht
      rcases varintTail_cases m lo rest with ⟨_, h'⟩ | ⟨_, _, h'⟩ | ⟨hl, _, h'⟩
      · rw [h'] at ht; cases ht
      · rw [h'] at ht; cases ht
      · rw [h'] at ht
        obtain ⟨rfl, rfl⟩ : le (rest.take m) = v ∧ m + 1 = n := by simpa using ht
        have h1 := le_lt (rest.take m)
        have h2 : (rest.take m).length = m := by simp [hl]
        have h3 : 256 ^ m ≤ 256 ^ 8 := Nat.pow_le_pow_right (by decide) hm
        rw [h2] at h1
        refine ⟨by omega, by omega, by simp; omega⟩
    simp only [varintDecode] at h
    split at h
    · obtain ⟨rfl, rfl⟩ : d.toNat = v ∧ 1 = n := by simpa using h
      refine ⟨by omega, le_refl _, by simp⟩
    · split at h
      · exact tail _ _ (by decide) h
      · split at h
        · exact tail _ _ (by decide) h
        · exact tail _ _ (by decide) h

/-- The varint decoder's one error, after 3, 5 or 9 bytes that are there (rule R102). -/
theorem varintDecode_err (s : List Byte) (c : ErrCode) (n : Nat) (h : varintDecode s = .err c n) :
    c = .protoNoncanonicalVarint ∧ (n = 3 ∨ n = 5 ∨ n = 9) ∧ n ≤ s.length := by
  cases s with
  | nil => cases h
  | cons d rest =>
    have tail : ∀ m lo, (m = 2 ∨ m = 4 ∨ m = 8) → varintTail m lo rest = .err c n →
        c = .protoNoncanonicalVarint ∧ (n = 3 ∨ n = 5 ∨ n = 9) ∧ n ≤ (d :: rest).length := by
      intro m lo hm ht
      rcases varintTail_cases m lo rest with ⟨_, h'⟩ | ⟨hl, _, h'⟩ | ⟨_, _, h'⟩
      · rw [h'] at ht; cases ht
      · rw [h'] at ht
        obtain ⟨rfl, rfl⟩ : ErrCode.protoNoncanonicalVarint = c ∧ m + 1 = n := by simpa using ht
        refine ⟨rfl, by omega, by simp; omega⟩
      · rw [h'] at ht; cases ht
    simp only [varintDecode] at h
    split at h
    · cases h
    · split at h
      · exact tail _ _ (by decide) h
      · split at h
        · exact tail _ _ (by decide) h
        · exact tail _ _ (by decide) h

/-- What the varstring decoder can answer (`41_varstring.md` rule R116). -/
theorem varstrDecode_cases (s : List Byte) :
    (varintDecode s = .short ∧ varstrDecode s = .short) ∨
    (∃ c n, varintDecode s = .err c n ∧ varstrDecode s = .err c n) ∨
    (∃ l n, varintDecode s = .ok l n ∧ Config.maxPayload < l ∧ varstrDecode s = .err .protoVarstringTooLong n) ∨
    (∃ l n, varintDecode s = .ok l n ∧ l ≤ Config.maxPayload ∧ s.length < n + l ∧ varstrDecode s = .short) ∨
    (∃ l n, varintDecode s = .ok l n ∧ l ≤ Config.maxPayload ∧ n + l ≤ s.length ∧
      varstrDecode s = .ok ((s.drop n).take l) (n + l)) := by
  unfold varstrDecode
  split
  · exact .inl ⟨‹_›, rfl⟩
  · exact .inr (.inl ⟨_, _, ‹_›, rfl⟩)
  · split
    · exact .inr (.inr (.inl ⟨_, _, ‹_›, ‹_›, rfl⟩))
    · split
      · exact .inr (.inr (.inr (.inl ⟨_, _, ‹_›, by omega, ‹_›, rfl⟩)))
      · exact .inr (.inr (.inr (.inr ⟨_, _, ‹_›, by omega, by omega, rfl⟩)))

/-- A NetAddress either decodes from 26 or 30 bytes that are there, or the input is short (`42_netaddress.md` rules
R134, R138). -/
theorem netaddrDecode_cases (ts : Bool) (s : List Byte) :
    (s.length < (if ts then 30 else 26) ∧ netaddrDecode ts s = .short) ∨
    ((if ts then 30 else 26) ≤ s.length ∧ ∃ a, netaddrDecode ts s = .ok a (if ts then 30 else 26)) := by
  unfold netaddrDecode
  cases ts <;> simp only [Bool.false_eq_true, if_false, if_true] <;> split
  · exact .inl ⟨‹_›, rfl⟩
  · exact .inr ⟨by omega, _, rfl⟩
  · exact .inl ⟨‹_›, rfl⟩
  · exact .inr ⟨by omega, _, rfl⟩

end Sys2Proof.Machine
end

