-- ==== Sys2Proof/Laws/State.lean ====
section
/-! SUPPORT. One lemma per field of State and per update of it, all true by rfl, so that no later proof unfolds a record
update. -/

namespace Sys2Proof.Machine

open Sys2Proof

/-! ### RxTake (`20_memory.md` rule R51) -/

section
variable (s : State) (n : Nat)

@[simp] theorem State.rxTake_cmdl : (s.rxTake n).cmdl = s.cmdl := rfl
@[simp] theorem State.rxTake_busy : (s.rxTake n).busy = s.busy := rfl
@[simp] theorem State.rxTake_esticky : (s.rxTake n).esticky = s.esticky := rfl
@[simp] theorem State.rxTake_rxEof : (s.rxTake n).rxEof = s.rxEof := rfl
@[simp] theorem State.rxTake_drainshort : (s.rxTake n).drainshort = s.drainshort := rfl
@[simp] theorem State.rxTake_nats : (s.rxTake n).nats = s.nats := rfl
@[simp] theorem State.rxTake_err : (s.rxTake n).err = s.err := rfl
@[simp] theorem State.rxTake_magic : (s.rxTake n).magic = s.magic := rfl
@[simp] theorem State.rxTake_pver : (s.rxTake n).pver = s.pver := rfl
@[simp] theorem State.rxTake_tsver : (s.rxTake n).tsver = s.tsver := rfl
@[simp] theorem State.rxTake_val : (s.rxTake n).val = s.val := rfl
@[simp] theorem State.rxTake_naTime : (s.rxTake n).naTime = s.naTime := rfl
@[simp] theorem State.rxTake_naSvc : (s.rxTake n).naSvc = s.naSvc := rfl
@[simp] theorem State.rxTake_naIp : (s.rxTake n).naIp = s.naIp := rfl
@[simp] theorem State.rxTake_naPort : (s.rxTake n).naPort = s.naPort := rfl
@[simp] theorem State.rxTake_hMagic : (s.rxTake n).hMagic = s.hMagic := rfl
@[simp] theorem State.rxTake_hCmd : (s.rxTake n).hCmd = s.hCmd := rfl
@[simp] theorem State.rxTake_hSize : (s.rxTake n).hSize = s.hSize := rfl
@[simp] theorem State.rxTake_hCksum : (s.rxTake n).hCksum = s.hCksum := rfl
@[simp] theorem State.rxTake_cmdLen : (s.rxTake n).cmdLen = s.cmdLen := rfl
@[simp] theorem State.rxTake_ck : (s.rxTake n).ck = s.ck := rfl
@[simp] theorem State.rxTake_dlen : (s.rxTake n).dlen = s.dlen := rfl
@[simp] theorem State.rxTake_daddr : (s.rxTake n).daddr = s.daddr := rfl
@[simp] theorem State.rxTake_dbuf : (s.rxTake n).dbuf = s.dbuf := rfl
@[simp] theorem State.rxTake_rxq : (s.rxTake n).rxq = s.rxq.drop n := rfl
@[simp] theorem State.rxTake_txq : (s.rxTake n).txq = s.txq := rfl
@[simp] theorem State.rxTake_script : (s.rxTake n).script = s.script := rfl
@[simp] theorem State.rxTake_hostData : (s.rxTake n).hostData = s.hostData := rfl
@[simp] theorem State.rxTake_epoch : (s.rxTake n).epoch = s.epoch := rfl
@[simp] theorem State.rxTake_nextDraw : (s.rxTake n).nextDraw = s.nextDraw := rfl

end

/-! ### `RX.q <- []` (`20_memory.md` rule R53) -/

section
variable (s : State)

@[simp] theorem State.rxClear_cmdl : (s.rxClear).cmdl = s.cmdl := rfl
@[simp] theorem State.rxClear_busy : (s.rxClear).busy = s.busy := rfl
@[simp] theorem State.rxClear_esticky : (s.rxClear).esticky = s.esticky := rfl
@[simp] theorem State.rxClear_rxEof : (s.rxClear).rxEof = s.rxEof := rfl
@[simp] theorem State.rxClear_drainshort : (s.rxClear).drainshort = s.drainshort := rfl
@[simp] theorem State.rxClear_nats : (s.rxClear).nats = s.nats := rfl
@[simp] theorem State.rxClear_err : (s.rxClear).err = s.err := rfl
@[simp] theorem State.rxClear_magic : (s.rxClear).magic = s.magic := rfl
@[simp] theorem State.rxClear_pver : (s.rxClear).pver = s.pver := rfl
@[simp] theorem State.rxClear_tsver : (s.rxClear).tsver = s.tsver := rfl
@[simp] theorem State.rxClear_val : (s.rxClear).val = s.val := rfl
@[simp] theorem State.rxClear_naTime : (s.rxClear).naTime = s.naTime := rfl
@[simp] theorem State.rxClear_naSvc : (s.rxClear).naSvc = s.naSvc := rfl
@[simp] theorem State.rxClear_naIp : (s.rxClear).naIp = s.naIp := rfl
@[simp] theorem State.rxClear_naPort : (s.rxClear).naPort = s.naPort := rfl
@[simp] theorem State.rxClear_hMagic : (s.rxClear).hMagic = s.hMagic := rfl
@[simp] theorem State.rxClear_hCmd : (s.rxClear).hCmd = s.hCmd := rfl
@[simp] theorem State.rxClear_hSize : (s.rxClear).hSize = s.hSize := rfl
@[simp] theorem State.rxClear_hCksum : (s.rxClear).hCksum = s.hCksum := rfl
@[simp] theorem State.rxClear_cmdLen : (s.rxClear).cmdLen = s.cmdLen := rfl
@[simp] theorem State.rxClear_ck : (s.rxClear).ck = s.ck := rfl
@[simp] theorem State.rxClear_dlen : (s.rxClear).dlen = s.dlen := rfl
@[simp] theorem State.rxClear_daddr : (s.rxClear).daddr = s.daddr := rfl
@[simp] theorem State.rxClear_dbuf : (s.rxClear).dbuf = s.dbuf := rfl
@[simp] theorem State.rxClear_rxq : (s.rxClear).rxq = [] := rfl
@[simp] theorem State.rxClear_txq : (s.rxClear).txq = s.txq := rfl
@[simp] theorem State.rxClear_script : (s.rxClear).script = s.script := rfl
@[simp] theorem State.rxClear_hostData : (s.rxClear).hostData = s.hostData := rfl
@[simp] theorem State.rxClear_epoch : (s.rxClear).epoch = s.epoch := rfl
@[simp] theorem State.rxClear_nextDraw : (s.rxClear).nextDraw = s.nextDraw := rfl

end

/-! ### TxPut (`20_memory.md` rule R52) -/

section
variable (s : State) (bs : List Byte)

@[simp] theorem State.txPut_cmdl : (s.txPut bs).cmdl = s.cmdl := rfl
@[simp] theorem State.txPut_busy : (s.txPut bs).busy = s.busy := rfl
@[simp] theorem State.txPut_esticky : (s.txPut bs).esticky = s.esticky := rfl
@[simp] theorem State.txPut_rxEof : (s.txPut bs).rxEof = s.rxEof := rfl
@[simp] theorem State.txPut_drainshort : (s.txPut bs).drainshort = s.drainshort := rfl
@[simp] theorem State.txPut_nats : (s.txPut bs).nats = s.nats := rfl
@[simp] theorem State.txPut_err : (s.txPut bs).err = s.err := rfl
@[simp] theorem State.txPut_magic : (s.txPut bs).magic = s.magic := rfl
@[simp] theorem State.txPut_pver : (s.txPut bs).pver = s.pver := rfl
@[simp] theorem State.txPut_tsver : (s.txPut bs).tsver = s.tsver := rfl
@[simp] theorem State.txPut_val : (s.txPut bs).val = s.val := rfl
@[simp] theorem State.txPut_naTime : (s.txPut bs).naTime = s.naTime := rfl
@[simp] theorem State.txPut_naSvc : (s.txPut bs).naSvc = s.naSvc := rfl
@[simp] theorem State.txPut_naIp : (s.txPut bs).naIp = s.naIp := rfl
@[simp] theorem State.txPut_naPort : (s.txPut bs).naPort = s.naPort := rfl
@[simp] theorem State.txPut_hMagic : (s.txPut bs).hMagic = s.hMagic := rfl
@[simp] theorem State.txPut_hCmd : (s.txPut bs).hCmd = s.hCmd := rfl
@[simp] theorem State.txPut_hSize : (s.txPut bs).hSize = s.hSize := rfl
@[simp] theorem State.txPut_hCksum : (s.txPut bs).hCksum = s.hCksum := rfl
@[simp] theorem State.txPut_cmdLen : (s.txPut bs).cmdLen = s.cmdLen := rfl
@[simp] theorem State.txPut_ck : (s.txPut bs).ck = s.ck := rfl
@[simp] theorem State.txPut_dlen : (s.txPut bs).dlen = s.dlen := rfl
@[simp] theorem State.txPut_daddr : (s.txPut bs).daddr = s.daddr := rfl
@[simp] theorem State.txPut_dbuf : (s.txPut bs).dbuf = s.dbuf := rfl
@[simp] theorem State.txPut_rxq : (s.txPut bs).rxq = s.rxq := rfl
@[simp] theorem State.txPut_txq : (s.txPut bs).txq = s.txq ++ bs := rfl
@[simp] theorem State.txPut_script : (s.txPut bs).script = s.script := rfl
@[simp] theorem State.txPut_hostData : (s.txPut bs).hostData = s.hostData := rfl
@[simp] theorem State.txPut_epoch : (s.txPut bs).epoch = s.epoch := rfl
@[simp] theorem State.txPut_nextDraw : (s.txPut bs).nextDraw = s.nextDraw := rfl

end

/-! ### a draw used up (the model's own, log entry 5) -/

section
variable (s : State)

@[simp] theorem State.useDraw_cmdl : (s.useDraw).cmdl = s.cmdl := rfl
@[simp] theorem State.useDraw_busy : (s.useDraw).busy = s.busy := rfl
@[simp] theorem State.useDraw_esticky : (s.useDraw).esticky = s.esticky := rfl
@[simp] theorem State.useDraw_rxEof : (s.useDraw).rxEof = s.rxEof := rfl
@[simp] theorem State.useDraw_drainshort : (s.useDraw).drainshort = s.drainshort := rfl
@[simp] theorem State.useDraw_nats : (s.useDraw).nats = s.nats := rfl
@[simp] theorem State.useDraw_err : (s.useDraw).err = s.err := rfl
@[simp] theorem State.useDraw_magic : (s.useDraw).magic = s.magic := rfl
@[simp] theorem State.useDraw_pver : (s.useDraw).pver = s.pver := rfl
@[simp] theorem State.useDraw_tsver : (s.useDraw).tsver = s.tsver := rfl
@[simp] theorem State.useDraw_val : (s.useDraw).val = s.val := rfl
@[simp] theorem State.useDraw_naTime : (s.useDraw).naTime = s.naTime := rfl
@[simp] theorem State.useDraw_naSvc : (s.useDraw).naSvc = s.naSvc := rfl
@[simp] theorem State.useDraw_naIp : (s.useDraw).naIp = s.naIp := rfl
@[simp] theorem State.useDraw_naPort : (s.useDraw).naPort = s.naPort := rfl
@[simp] theorem State.useDraw_hMagic : (s.useDraw).hMagic = s.hMagic := rfl
@[simp] theorem State.useDraw_hCmd : (s.useDraw).hCmd = s.hCmd := rfl
@[simp] theorem State.useDraw_hSize : (s.useDraw).hSize = s.hSize := rfl
@[simp] theorem State.useDraw_hCksum : (s.useDraw).hCksum = s.hCksum := rfl
@[simp] theorem State.useDraw_cmdLen : (s.useDraw).cmdLen = s.cmdLen := rfl
@[simp] theorem State.useDraw_ck : (s.useDraw).ck = s.ck := rfl
@[simp] theorem State.useDraw_dlen : (s.useDraw).dlen = s.dlen := rfl
@[simp] theorem State.useDraw_daddr : (s.useDraw).daddr = s.daddr := rfl
@[simp] theorem State.useDraw_dbuf : (s.useDraw).dbuf = s.dbuf := rfl
@[simp] theorem State.useDraw_rxq : (s.useDraw).rxq = s.rxq := rfl
@[simp] theorem State.useDraw_txq : (s.useDraw).txq = s.txq := rfl
@[simp] theorem State.useDraw_script : (s.useDraw).script = s.script := rfl
@[simp] theorem State.useDraw_hostData : (s.useDraw).hostData = s.hostData := rfl
@[simp] theorem State.useDraw_epoch : (s.useDraw).epoch = s.epoch := rfl
@[simp] theorem State.useDraw_nextDraw : (s.useDraw).nextDraw = s.nextDraw + 1 := rfl

end

/-! ### MemWrite (`00_scope.md` rule R14) -/

section
variable (s : State) (a : Nat) (bs : List Byte)

@[simp] theorem State.memWrite_cmdl : (s.memWrite a bs).cmdl = s.cmdl := rfl
@[simp] theorem State.memWrite_busy : (s.memWrite a bs).busy = s.busy := rfl
@[simp] theorem State.memWrite_esticky : (s.memWrite a bs).esticky = s.esticky := rfl
@[simp] theorem State.memWrite_rxEof : (s.memWrite a bs).rxEof = s.rxEof := rfl
@[simp] theorem State.memWrite_drainshort : (s.memWrite a bs).drainshort = s.drainshort := rfl
@[simp] theorem State.memWrite_nats : (s.memWrite a bs).nats = s.nats := rfl
@[simp] theorem State.memWrite_err : (s.memWrite a bs).err = s.err := rfl
@[simp] theorem State.memWrite_magic : (s.memWrite a bs).magic = s.magic := rfl
@[simp] theorem State.memWrite_pver : (s.memWrite a bs).pver = s.pver := rfl
@[simp] theorem State.memWrite_tsver : (s.memWrite a bs).tsver = s.tsver := rfl
@[simp] theorem State.memWrite_val : (s.memWrite a bs).val = s.val := rfl
@[simp] theorem State.memWrite_naTime : (s.memWrite a bs).naTime = s.naTime := rfl
@[simp] theorem State.memWrite_naSvc : (s.memWrite a bs).naSvc = s.naSvc := rfl
@[simp] theorem State.memWrite_naIp : (s.memWrite a bs).naIp = s.naIp := rfl
@[simp] theorem State.memWrite_naPort : (s.memWrite a bs).naPort = s.naPort := rfl
@[simp] theorem State.memWrite_hMagic : (s.memWrite a bs).hMagic = s.hMagic := rfl
@[simp] theorem State.memWrite_hCmd : (s.memWrite a bs).hCmd = s.hCmd := rfl
@[simp] theorem State.memWrite_hSize : (s.memWrite a bs).hSize = s.hSize := rfl
@[simp] theorem State.memWrite_hCksum : (s.memWrite a bs).hCksum = s.hCksum := rfl
@[simp] theorem State.memWrite_cmdLen : (s.memWrite a bs).cmdLen = s.cmdLen := rfl
@[simp] theorem State.memWrite_ck : (s.memWrite a bs).ck = s.ck := rfl
@[simp] theorem State.memWrite_dlen : (s.memWrite a bs).dlen = s.dlen := rfl
@[simp] theorem State.memWrite_daddr : (s.memWrite a bs).daddr = s.daddr := rfl
@[simp] theorem State.memWrite_dbuf : (s.memWrite a bs).dbuf = s.dbuf.put a bs := rfl
@[simp] theorem State.memWrite_rxq : (s.memWrite a bs).rxq = s.rxq := rfl
@[simp] theorem State.memWrite_txq : (s.memWrite a bs).txq = s.txq := rfl
@[simp] theorem State.memWrite_script : (s.memWrite a bs).script = s.script := rfl
@[simp] theorem State.memWrite_hostData : (s.memWrite a bs).hostData = s.hostData := rfl
@[simp] theorem State.memWrite_epoch : (s.memWrite a bs).epoch = s.epoch := rfl
@[simp] theorem State.memWrite_nextDraw : (s.memWrite a bs).nextDraw = s.nextDraw := rfl

end

/-! ### `DBUF[0..n) <- unspecified` (U2) -/

section
variable (s : State) (n : Nat)

@[simp] theorem State.memUnspecify_cmdl : (s.memUnspecify n).cmdl = s.cmdl := rfl
@[simp] theorem State.memUnspecify_busy : (s.memUnspecify n).busy = s.busy := rfl
@[simp] theorem State.memUnspecify_esticky : (s.memUnspecify n).esticky = s.esticky := rfl
@[simp] theorem State.memUnspecify_rxEof : (s.memUnspecify n).rxEof = s.rxEof := rfl
@[simp] theorem State.memUnspecify_drainshort : (s.memUnspecify n).drainshort = s.drainshort := rfl
@[simp] theorem State.memUnspecify_nats : (s.memUnspecify n).nats = s.nats := rfl
@[simp] theorem State.memUnspecify_err : (s.memUnspecify n).err = s.err := rfl
@[simp] theorem State.memUnspecify_magic : (s.memUnspecify n).magic = s.magic := rfl
@[simp] theorem State.memUnspecify_pver : (s.memUnspecify n).pver = s.pver := rfl
@[simp] theorem State.memUnspecify_tsver : (s.memUnspecify n).tsver = s.tsver := rfl
@[simp] theorem State.memUnspecify_val : (s.memUnspecify n).val = s.val := rfl
@[simp] theorem State.memUnspecify_naTime : (s.memUnspecify n).naTime = s.naTime := rfl
@[simp] theorem State.memUnspecify_naSvc : (s.memUnspecify n).naSvc = s.naSvc := rfl
@[simp] theorem State.memUnspecify_naIp : (s.memUnspecify n).naIp = s.naIp := rfl
@[simp] theorem State.memUnspecify_naPort : (s.memUnspecify n).naPort = s.naPort := rfl
@[simp] theorem State.memUnspecify_hMagic : (s.memUnspecify n).hMagic = s.hMagic := rfl
@[simp] theorem State.memUnspecify_hCmd : (s.memUnspecify n).hCmd = s.hCmd := rfl
@[simp] theorem State.memUnspecify_hSize : (s.memUnspecify n).hSize = s.hSize := rfl
@[simp] theorem State.memUnspecify_hCksum : (s.memUnspecify n).hCksum = s.hCksum := rfl
@[simp] theorem State.memUnspecify_cmdLen : (s.memUnspecify n).cmdLen = s.cmdLen := rfl
@[simp] theorem State.memUnspecify_ck : (s.memUnspecify n).ck = s.ck := rfl
@[simp] theorem State.memUnspecify_dlen : (s.memUnspecify n).dlen = s.dlen := rfl
@[simp] theorem State.memUnspecify_daddr : (s.memUnspecify n).daddr = s.daddr := rfl
@[simp] theorem State.memUnspecify_dbuf :
    (s.memUnspecify n).dbuf = s.dbuf.put 0 ((List.range n).map (Config.freeByte s.nextDraw)) :=
  rfl
@[simp] theorem State.memUnspecify_rxq : (s.memUnspecify n).rxq = s.rxq := rfl
@[simp] theorem State.memUnspecify_txq : (s.memUnspecify n).txq = s.txq := rfl
@[simp] theorem State.memUnspecify_script : (s.memUnspecify n).script = s.script := rfl
@[simp] theorem State.memUnspecify_hostData : (s.memUnspecify n).hostData = s.hostData := rfl
@[simp] theorem State.memUnspecify_epoch : (s.memUnspecify n).epoch = s.epoch := rfl
@[simp] theorem State.memUnspecify_nextDraw : (s.memUnspecify n).nextDraw = s.nextDraw + 1 := rfl

end

/-! ### a body lost to end of stream (rules R119, R196) -/

section
variable (s : State) (n : Nat)

@[simp] theorem State.bodyLost_cmdl : (s.bodyLost n).cmdl = s.cmdl := rfl
@[simp] theorem State.bodyLost_busy : (s.bodyLost n).busy = s.busy := rfl
@[simp] theorem State.bodyLost_esticky : (s.bodyLost n).esticky = s.esticky := rfl
@[simp] theorem State.bodyLost_rxEof : (s.bodyLost n).rxEof = s.rxEof := rfl
@[simp] theorem State.bodyLost_drainshort : (s.bodyLost n).drainshort = s.drainshort := rfl
@[simp] theorem State.bodyLost_nats : (s.bodyLost n).nats = s.nats := rfl
@[simp] theorem State.bodyLost_err : (s.bodyLost n).err = s.err := rfl
@[simp] theorem State.bodyLost_magic : (s.bodyLost n).magic = s.magic := rfl
@[simp] theorem State.bodyLost_pver : (s.bodyLost n).pver = s.pver := rfl
@[simp] theorem State.bodyLost_tsver : (s.bodyLost n).tsver = s.tsver := rfl
@[simp] theorem State.bodyLost_val : (s.bodyLost n).val = s.val := rfl
@[simp] theorem State.bodyLost_naTime : (s.bodyLost n).naTime = s.naTime := rfl
@[simp] theorem State.bodyLost_naSvc : (s.bodyLost n).naSvc = s.naSvc := rfl
@[simp] theorem State.bodyLost_naIp : (s.bodyLost n).naIp = s.naIp := rfl
@[simp] theorem State.bodyLost_naPort : (s.bodyLost n).naPort = s.naPort := rfl
@[simp] theorem State.bodyLost_hMagic : (s.bodyLost n).hMagic = s.hMagic := rfl
@[simp] theorem State.bodyLost_hCmd : (s.bodyLost n).hCmd = s.hCmd := rfl
@[simp] theorem State.bodyLost_hSize : (s.bodyLost n).hSize = s.hSize := rfl
@[simp] theorem State.bodyLost_hCksum : (s.bodyLost n).hCksum = s.hCksum := rfl
@[simp] theorem State.bodyLost_cmdLen : (s.bodyLost n).cmdLen = s.cmdLen := rfl
@[simp] theorem State.bodyLost_ck : (s.bodyLost n).ck = s.ck := rfl
@[simp] theorem State.bodyLost_dlen : (s.bodyLost n).dlen = 0 := rfl
@[simp] theorem State.bodyLost_daddr : (s.bodyLost n).daddr = s.daddr := rfl
@[simp] theorem State.bodyLost_dbuf :
    (s.bodyLost n).dbuf = s.dbuf.put 0 ((List.range n).map (Config.freeByte s.nextDraw)) :=
  rfl
@[simp] theorem State.bodyLost_rxq : (s.bodyLost n).rxq = s.rxq := rfl
@[simp] theorem State.bodyLost_txq : (s.bodyLost n).txq = s.txq := rfl
@[simp] theorem State.bodyLost_script : (s.bodyLost n).script = s.script := rfl
@[simp] theorem State.bodyLost_hostData : (s.bodyLost n).hostData = s.hostData := rfl
@[simp] theorem State.bodyLost_epoch : (s.bodyLost n).epoch = s.epoch := rfl
@[simp] theorem State.bodyLost_nextDraw : (s.bodyLost n).nextDraw = s.nextDraw + 1 := rfl

end

/-! ### a body stored (rules R119, R196) -/

section
variable (s : State) (b : List Byte)

@[simp] theorem State.bodyStored_cmdl : (s.bodyStored b).cmdl = s.cmdl := rfl
@[simp] theorem State.bodyStored_busy : (s.bodyStored b).busy = s.busy := rfl
@[simp] theorem State.bodyStored_esticky : (s.bodyStored b).esticky = s.esticky := rfl
@[simp] theorem State.bodyStored_rxEof : (s.bodyStored b).rxEof = s.rxEof := rfl
@[simp] theorem State.bodyStored_drainshort : (s.bodyStored b).drainshort = s.drainshort := rfl
@[simp] theorem State.bodyStored_nats : (s.bodyStored b).nats = s.nats := rfl
@[simp] theorem State.bodyStored_err : (s.bodyStored b).err = s.err := rfl
@[simp] theorem State.bodyStored_magic : (s.bodyStored b).magic = s.magic := rfl
@[simp] theorem State.bodyStored_pver : (s.bodyStored b).pver = s.pver := rfl
@[simp] theorem State.bodyStored_tsver : (s.bodyStored b).tsver = s.tsver := rfl
@[simp] theorem State.bodyStored_val : (s.bodyStored b).val = s.val := rfl
@[simp] theorem State.bodyStored_naTime : (s.bodyStored b).naTime = s.naTime := rfl
@[simp] theorem State.bodyStored_naSvc : (s.bodyStored b).naSvc = s.naSvc := rfl
@[simp] theorem State.bodyStored_naIp : (s.bodyStored b).naIp = s.naIp := rfl
@[simp] theorem State.bodyStored_naPort : (s.bodyStored b).naPort = s.naPort := rfl
@[simp] theorem State.bodyStored_hMagic : (s.bodyStored b).hMagic = s.hMagic := rfl
@[simp] theorem State.bodyStored_hCmd : (s.bodyStored b).hCmd = s.hCmd := rfl
@[simp] theorem State.bodyStored_hSize : (s.bodyStored b).hSize = s.hSize := rfl
@[simp] theorem State.bodyStored_hCksum : (s.bodyStored b).hCksum = s.hCksum := rfl
@[simp] theorem State.bodyStored_cmdLen : (s.bodyStored b).cmdLen = s.cmdLen := rfl
@[simp] theorem State.bodyStored_ck : (s.bodyStored b).ck = s.ck := rfl
@[simp] theorem State.bodyStored_dlen : (s.bodyStored b).dlen = BitVec.ofNat 26 b.length := rfl
@[simp] theorem State.bodyStored_daddr : (s.bodyStored b).daddr = s.daddr := rfl
@[simp] theorem State.bodyStored_dbuf : (s.bodyStored b).dbuf = s.dbuf.put 0 b := rfl
@[simp] theorem State.bodyStored_rxq : (s.bodyStored b).rxq = s.rxq := rfl
@[simp] theorem State.bodyStored_txq : (s.bodyStored b).txq = s.txq := rfl
@[simp] theorem State.bodyStored_script : (s.bodyStored b).script = s.script := rfl
@[simp] theorem State.bodyStored_hostData : (s.bodyStored b).hostData = s.hostData := rfl
@[simp] theorem State.bodyStored_epoch : (s.bodyStored b).epoch = s.epoch := rfl
@[simp] theorem State.bodyStored_nextDraw : (s.bodyStored b).nextDraw = s.nextDraw := rfl

end

/-! ### completion with a result code (`60_exceptions.md` rule R216) -/

section
variable (s : State) (c : ErrCode)

@[simp] theorem State.complete_cmdl : (s.complete c).cmdl = s.cmdl := rfl
@[simp] theorem State.complete_busy : (s.complete c).busy = false := rfl
@[simp] theorem State.complete_esticky : (s.complete c).esticky = (s.esticky || c.setsSticky) := rfl
@[simp] theorem State.complete_rxEof : (s.complete c).rxEof = s.rxEof := rfl
@[simp] theorem State.complete_drainshort : (s.complete c).drainshort = s.drainshort := rfl
@[simp] theorem State.complete_nats : (s.complete c).nats = s.nats := rfl
@[simp] theorem State.complete_err : (s.complete c).err = c.code := rfl
@[simp] theorem State.complete_magic : (s.complete c).magic = s.magic := rfl
@[simp] theorem State.complete_pver : (s.complete c).pver = s.pver := rfl
@[simp] theorem State.complete_tsver : (s.complete c).tsver = s.tsver := rfl
@[simp] theorem State.complete_val : (s.complete c).val = s.val := rfl
@[simp] theorem State.complete_naTime : (s.complete c).naTime = s.naTime := rfl
@[simp] theorem State.complete_naSvc : (s.complete c).naSvc = s.naSvc := rfl
@[simp] theorem State.complete_naIp : (s.complete c).naIp = s.naIp := rfl
@[simp] theorem State.complete_naPort : (s.complete c).naPort = s.naPort := rfl
@[simp] theorem State.complete_hMagic : (s.complete c).hMagic = s.hMagic := rfl
@[simp] theorem State.complete_hCmd : (s.complete c).hCmd = s.hCmd := rfl
@[simp] theorem State.complete_hSize : (s.complete c).hSize = s.hSize := rfl
@[simp] theorem State.complete_hCksum : (s.complete c).hCksum = s.hCksum := rfl
@[simp] theorem State.complete_cmdLen : (s.complete c).cmdLen = s.cmdLen := rfl
@[simp] theorem State.complete_ck : (s.complete c).ck = s.ck := rfl
@[simp] theorem State.complete_dlen : (s.complete c).dlen = s.dlen := rfl
@[simp] theorem State.complete_daddr : (s.complete c).daddr = s.daddr := rfl
@[simp] theorem State.complete_dbuf : (s.complete c).dbuf = s.dbuf := rfl
@[simp] theorem State.complete_rxq : (s.complete c).rxq = s.rxq := rfl
@[simp] theorem State.complete_txq : (s.complete c).txq = s.txq := rfl
@[simp] theorem State.complete_script : (s.complete c).script = s.script := rfl
@[simp] theorem State.complete_hostData : (s.complete c).hostData = s.hostData := rfl
@[simp] theorem State.complete_epoch : (s.complete c).epoch = s.epoch := rfl
@[simp] theorem State.complete_nextDraw : (s.complete c).nextDraw = s.nextDraw := rfl

end

/-! ### CLRERR (`45_body_system.md` rule R206) -/

section
variable (s : State)

@[simp] theorem State.clearSticky_cmdl : (s.clearSticky).cmdl = s.cmdl := rfl
@[simp] theorem State.clearSticky_busy : (s.clearSticky).busy = s.busy := rfl
@[simp] theorem State.clearSticky_esticky : (s.clearSticky).esticky = false := rfl
@[simp] theorem State.clearSticky_rxEof : (s.clearSticky).rxEof = s.rxEof := rfl
@[simp] theorem State.clearSticky_drainshort : (s.clearSticky).drainshort = s.drainshort := rfl
@[simp] theorem State.clearSticky_nats : (s.clearSticky).nats = s.nats := rfl
@[simp] theorem State.clearSticky_err : (s.clearSticky).err = s.err := rfl
@[simp] theorem State.clearSticky_magic : (s.clearSticky).magic = s.magic := rfl
@[simp] theorem State.clearSticky_pver : (s.clearSticky).pver = s.pver := rfl
@[simp] theorem State.clearSticky_tsver : (s.clearSticky).tsver = s.tsver := rfl
@[simp] theorem State.clearSticky_val : (s.clearSticky).val = s.val := rfl
@[simp] theorem State.clearSticky_naTime : (s.clearSticky).naTime = s.naTime := rfl
@[simp] theorem State.clearSticky_naSvc : (s.clearSticky).naSvc = s.naSvc := rfl
@[simp] theorem State.clearSticky_naIp : (s.clearSticky).naIp = s.naIp := rfl
@[simp] theorem State.clearSticky_naPort : (s.clearSticky).naPort = s.naPort := rfl
@[simp] theorem State.clearSticky_hMagic : (s.clearSticky).hMagic = s.hMagic := rfl
@[simp] theorem State.clearSticky_hCmd : (s.clearSticky).hCmd = s.hCmd := rfl
@[simp] theorem State.clearSticky_hSize : (s.clearSticky).hSize = s.hSize := rfl
@[simp] theorem State.clearSticky_hCksum : (s.clearSticky).hCksum = s.hCksum := rfl
@[simp] theorem State.clearSticky_cmdLen : (s.clearSticky).cmdLen = s.cmdLen := rfl
@[simp] theorem State.clearSticky_ck : (s.clearSticky).ck = s.ck := rfl
@[simp] theorem State.clearSticky_dlen : (s.clearSticky).dlen = s.dlen := rfl
@[simp] theorem State.clearSticky_daddr : (s.clearSticky).daddr = s.daddr := rfl
@[simp] theorem State.clearSticky_dbuf : (s.clearSticky).dbuf = s.dbuf := rfl
@[simp] theorem State.clearSticky_rxq : (s.clearSticky).rxq = s.rxq := rfl
@[simp] theorem State.clearSticky_txq : (s.clearSticky).txq = s.txq := rfl
@[simp] theorem State.clearSticky_script : (s.clearSticky).script = s.script := rfl
@[simp] theorem State.clearSticky_hostData : (s.clearSticky).hostData = s.hostData := rfl
@[simp] theorem State.clearSticky_epoch : (s.clearSticky).epoch = s.epoch := rfl
@[simp] theorem State.clearSticky_nextDraw : (s.clearSticky).nextDraw = s.nextDraw := rfl

end

/-! ### `CK <- c` (`43_checksum.md`) -/

section
variable (s : State) (c : Bytes 4)

@[simp] theorem State.setCk_cmdl : (s.setCk c).cmdl = s.cmdl := rfl
@[simp] theorem State.setCk_busy : (s.setCk c).busy = s.busy := rfl
@[simp] theorem State.setCk_esticky : (s.setCk c).esticky = s.esticky := rfl
@[simp] theorem State.setCk_rxEof : (s.setCk c).rxEof = s.rxEof := rfl
@[simp] theorem State.setCk_drainshort : (s.setCk c).drainshort = s.drainshort := rfl
@[simp] theorem State.setCk_nats : (s.setCk c).nats = s.nats := rfl
@[simp] theorem State.setCk_err : (s.setCk c).err = s.err := rfl
@[simp] theorem State.setCk_magic : (s.setCk c).magic = s.magic := rfl
@[simp] theorem State.setCk_pver : (s.setCk c).pver = s.pver := rfl
@[simp] theorem State.setCk_tsver : (s.setCk c).tsver = s.tsver := rfl
@[simp] theorem State.setCk_val : (s.setCk c).val = s.val := rfl
@[simp] theorem State.setCk_naTime : (s.setCk c).naTime = s.naTime := rfl
@[simp] theorem State.setCk_naSvc : (s.setCk c).naSvc = s.naSvc := rfl
@[simp] theorem State.setCk_naIp : (s.setCk c).naIp = s.naIp := rfl
@[simp] theorem State.setCk_naPort : (s.setCk c).naPort = s.naPort := rfl
@[simp] theorem State.setCk_hMagic : (s.setCk c).hMagic = s.hMagic := rfl
@[simp] theorem State.setCk_hCmd : (s.setCk c).hCmd = s.hCmd := rfl
@[simp] theorem State.setCk_hSize : (s.setCk c).hSize = s.hSize := rfl
@[simp] theorem State.setCk_hCksum : (s.setCk c).hCksum = s.hCksum := rfl
@[simp] theorem State.setCk_cmdLen : (s.setCk c).cmdLen = s.cmdLen := rfl
@[simp] theorem State.setCk_ck : (s.setCk c).ck = c := rfl
@[simp] theorem State.setCk_dlen : (s.setCk c).dlen = s.dlen := rfl
@[simp] theorem State.setCk_daddr : (s.setCk c).daddr = s.daddr := rfl
@[simp] theorem State.setCk_dbuf : (s.setCk c).dbuf = s.dbuf := rfl
@[simp] theorem State.setCk_rxq : (s.setCk c).rxq = s.rxq := rfl
@[simp] theorem State.setCk_txq : (s.setCk c).txq = s.txq := rfl
@[simp] theorem State.setCk_script : (s.setCk c).script = s.script := rfl
@[simp] theorem State.setCk_hostData : (s.setCk c).hostData = s.hostData := rfl
@[simp] theorem State.setCk_epoch : (s.setCk c).epoch = s.epoch := rfl
@[simp] theorem State.setCk_nextDraw : (s.setCk c).nextDraw = s.nextDraw := rfl

end

/-! ### the four header registers (`44_header.md`) -/

section
variable (s : State) (h : Header)

@[simp] theorem State.setHeader_cmdl : (s.setHeader h).cmdl = s.cmdl := rfl
@[simp] theorem State.setHeader_busy : (s.setHeader h).busy = s.busy := rfl
@[simp] theorem State.setHeader_esticky : (s.setHeader h).esticky = s.esticky := rfl
@[simp] theorem State.setHeader_rxEof : (s.setHeader h).rxEof = s.rxEof := rfl
@[simp] theorem State.setHeader_drainshort : (s.setHeader h).drainshort = s.drainshort := rfl
@[simp] theorem State.setHeader_nats : (s.setHeader h).nats = s.nats := rfl
@[simp] theorem State.setHeader_err : (s.setHeader h).err = s.err := rfl
@[simp] theorem State.setHeader_magic : (s.setHeader h).magic = s.magic := rfl
@[simp] theorem State.setHeader_pver : (s.setHeader h).pver = s.pver := rfl
@[simp] theorem State.setHeader_tsver : (s.setHeader h).tsver = s.tsver := rfl
@[simp] theorem State.setHeader_val : (s.setHeader h).val = s.val := rfl
@[simp] theorem State.setHeader_naTime : (s.setHeader h).naTime = s.naTime := rfl
@[simp] theorem State.setHeader_naSvc : (s.setHeader h).naSvc = s.naSvc := rfl
@[simp] theorem State.setHeader_naIp : (s.setHeader h).naIp = s.naIp := rfl
@[simp] theorem State.setHeader_naPort : (s.setHeader h).naPort = s.naPort := rfl
@[simp] theorem State.setHeader_hMagic : (s.setHeader h).hMagic = h.magic := rfl
@[simp] theorem State.setHeader_hCmd : (s.setHeader h).hCmd = h.cmd := rfl
@[simp] theorem State.setHeader_hSize : (s.setHeader h).hSize = h.size := rfl
@[simp] theorem State.setHeader_hCksum : (s.setHeader h).hCksum = h.cksum := rfl
@[simp] theorem State.setHeader_cmdLen : (s.setHeader h).cmdLen = s.cmdLen := rfl
@[simp] theorem State.setHeader_ck : (s.setHeader h).ck = s.ck := rfl
@[simp] theorem State.setHeader_dlen : (s.setHeader h).dlen = s.dlen := rfl
@[simp] theorem State.setHeader_daddr : (s.setHeader h).daddr = s.daddr := rfl
@[simp] theorem State.setHeader_dbuf : (s.setHeader h).dbuf = s.dbuf := rfl
@[simp] theorem State.setHeader_rxq : (s.setHeader h).rxq = s.rxq := rfl
@[simp] theorem State.setHeader_txq : (s.setHeader h).txq = s.txq := rfl
@[simp] theorem State.setHeader_script : (s.setHeader h).script = s.script := rfl
@[simp] theorem State.setHeader_hostData : (s.setHeader h).hostData = s.hostData := rfl
@[simp] theorem State.setHeader_epoch : (s.setHeader h).epoch = s.epoch := rfl
@[simp] theorem State.setHeader_nextDraw : (s.setHeader h).nextDraw = s.nextDraw := rfl

end

/-! ### `latch` (`44_header.md` rule R181) -/

section
variable (s : State) (h : Header)

@[simp] theorem State.latch_cmdl : (s.latch h).cmdl = s.cmdl := rfl
@[simp] theorem State.latch_busy : (s.latch h).busy = s.busy := rfl
@[simp] theorem State.latch_esticky : (s.latch h).esticky = s.esticky := rfl
@[simp] theorem State.latch_rxEof : (s.latch h).rxEof = s.rxEof := rfl
@[simp] theorem State.latch_drainshort : (s.latch h).drainshort = s.drainshort := rfl
@[simp] theorem State.latch_nats : (s.latch h).nats = s.nats := rfl
@[simp] theorem State.latch_err : (s.latch h).err = s.err := rfl
@[simp] theorem State.latch_magic : (s.latch h).magic = s.magic := rfl
@[simp] theorem State.latch_pver : (s.latch h).pver = s.pver := rfl
@[simp] theorem State.latch_tsver : (s.latch h).tsver = s.tsver := rfl
@[simp] theorem State.latch_val : (s.latch h).val = s.val := rfl
@[simp] theorem State.latch_naTime : (s.latch h).naTime = s.naTime := rfl
@[simp] theorem State.latch_naSvc : (s.latch h).naSvc = s.naSvc := rfl
@[simp] theorem State.latch_naIp : (s.latch h).naIp = s.naIp := rfl
@[simp] theorem State.latch_naPort : (s.latch h).naPort = s.naPort := rfl
@[simp] theorem State.latch_hMagic : (s.latch h).hMagic = h.magic := rfl
@[simp] theorem State.latch_hCmd : (s.latch h).hCmd = h.cmd := rfl
@[simp] theorem State.latch_hSize : (s.latch h).hSize = h.size := rfl
@[simp] theorem State.latch_hCksum : (s.latch h).hCksum = h.cksum := rfl
@[simp] theorem State.latch_cmdLen : (s.latch h).cmdLen = BitVec.ofNat 4 (stripZeros h.cmd.toList).length := rfl
@[simp] theorem State.latch_ck : (s.latch h).ck = s.ck := rfl
@[simp] theorem State.latch_dlen : (s.latch h).dlen = s.dlen := rfl
@[simp] theorem State.latch_daddr : (s.latch h).daddr = s.daddr := rfl
@[simp] theorem State.latch_dbuf : (s.latch h).dbuf = s.dbuf := rfl
@[simp] theorem State.latch_rxq : (s.latch h).rxq = s.rxq := rfl
@[simp] theorem State.latch_txq : (s.latch h).txq = s.txq := rfl
@[simp] theorem State.latch_script : (s.latch h).script = s.script := rfl
@[simp] theorem State.latch_hostData : (s.latch h).hostData = s.hostData := rfl
@[simp] theorem State.latch_epoch : (s.latch h).epoch = s.epoch := rfl
@[simp] theorem State.latch_nextDraw : (s.latch h).nextDraw = s.nextDraw := rfl

end

/-! ### `DRAINSHORT <- d` (`44_header.md` rule R181) -/

section
variable (s : State) (d : Bool)

@[simp] theorem State.setDrainshort_cmdl : (s.setDrainshort d).cmdl = s.cmdl := rfl
@[simp] theorem State.setDrainshort_busy : (s.setDrainshort d).busy = s.busy := rfl
@[simp] theorem State.setDrainshort_esticky : (s.setDrainshort d).esticky = s.esticky := rfl
@[simp] theorem State.setDrainshort_rxEof : (s.setDrainshort d).rxEof = s.rxEof := rfl
@[simp] theorem State.setDrainshort_drainshort : (s.setDrainshort d).drainshort = d := rfl
@[simp] theorem State.setDrainshort_nats : (s.setDrainshort d).nats = s.nats := rfl
@[simp] theorem State.setDrainshort_err : (s.setDrainshort d).err = s.err := rfl
@[simp] theorem State.setDrainshort_magic : (s.setDrainshort d).magic = s.magic := rfl
@[simp] theorem State.setDrainshort_pver : (s.setDrainshort d).pver = s.pver := rfl
@[simp] theorem State.setDrainshort_tsver : (s.setDrainshort d).tsver = s.tsver := rfl
@[simp] theorem State.setDrainshort_val : (s.setDrainshort d).val = s.val := rfl
@[simp] theorem State.setDrainshort_naTime : (s.setDrainshort d).naTime = s.naTime := rfl
@[simp] theorem State.setDrainshort_naSvc : (s.setDrainshort d).naSvc = s.naSvc := rfl
@[simp] theorem State.setDrainshort_naIp : (s.setDrainshort d).naIp = s.naIp := rfl
@[simp] theorem State.setDrainshort_naPort : (s.setDrainshort d).naPort = s.naPort := rfl
@[simp] theorem State.setDrainshort_hMagic : (s.setDrainshort d).hMagic = s.hMagic := rfl
@[simp] theorem State.setDrainshort_hCmd : (s.setDrainshort d).hCmd = s.hCmd := rfl
@[simp] theorem State.setDrainshort_hSize : (s.setDrainshort d).hSize = s.hSize := rfl
@[simp] theorem State.setDrainshort_hCksum : (s.setDrainshort d).hCksum = s.hCksum := rfl
@[simp] theorem State.setDrainshort_cmdLen : (s.setDrainshort d).cmdLen = s.cmdLen := rfl
@[simp] theorem State.setDrainshort_ck : (s.setDrainshort d).ck = s.ck := rfl
@[simp] theorem State.setDrainshort_dlen : (s.setDrainshort d).dlen = s.dlen := rfl
@[simp] theorem State.setDrainshort_daddr : (s.setDrainshort d).daddr = s.daddr := rfl
@[simp] theorem State.setDrainshort_dbuf : (s.setDrainshort d).dbuf = s.dbuf := rfl
@[simp] theorem State.setDrainshort_rxq : (s.setDrainshort d).rxq = s.rxq := rfl
@[simp] theorem State.setDrainshort_txq : (s.setDrainshort d).txq = s.txq := rfl
@[simp] theorem State.setDrainshort_script : (s.setDrainshort d).script = s.script := rfl
@[simp] theorem State.setDrainshort_hostData : (s.setDrainshort d).hostData = s.hostData := rfl
@[simp] theorem State.setDrainshort_epoch : (s.setDrainshort d).epoch = s.epoch := rfl
@[simp] theorem State.setDrainshort_nextDraw : (s.setDrainshort d).nextDraw = s.nextDraw := rfl

end

/-! ### the NetAddress registers and NATS (`42_netaddress.md` rule R135) -/

section
variable (s : State) (ts : Bool) (a : NetAddr)

@[simp] theorem State.setNetAddr_cmdl : (s.setNetAddr ts a).cmdl = s.cmdl := rfl
@[simp] theorem State.setNetAddr_busy : (s.setNetAddr ts a).busy = s.busy := rfl
@[simp] theorem State.setNetAddr_esticky : (s.setNetAddr ts a).esticky = s.esticky := rfl
@[simp] theorem State.setNetAddr_rxEof : (s.setNetAddr ts a).rxEof = s.rxEof := rfl
@[simp] theorem State.setNetAddr_drainshort : (s.setNetAddr ts a).drainshort = s.drainshort := rfl
@[simp] theorem State.setNetAddr_nats : (s.setNetAddr ts a).nats = ts := rfl
@[simp] theorem State.setNetAddr_err : (s.setNetAddr ts a).err = s.err := rfl
@[simp] theorem State.setNetAddr_magic : (s.setNetAddr ts a).magic = s.magic := rfl
@[simp] theorem State.setNetAddr_pver : (s.setNetAddr ts a).pver = s.pver := rfl
@[simp] theorem State.setNetAddr_tsver : (s.setNetAddr ts a).tsver = s.tsver := rfl
@[simp] theorem State.setNetAddr_val : (s.setNetAddr ts a).val = s.val := rfl
@[simp] theorem State.setNetAddr_naTime : (s.setNetAddr ts a).naTime = a.time := rfl
@[simp] theorem State.setNetAddr_naSvc : (s.setNetAddr ts a).naSvc = a.svc := rfl
@[simp] theorem State.setNetAddr_naIp : (s.setNetAddr ts a).naIp = a.ip := rfl
@[simp] theorem State.setNetAddr_naPort : (s.setNetAddr ts a).naPort = a.port := rfl
@[simp] theorem State.setNetAddr_hMagic : (s.setNetAddr ts a).hMagic = s.hMagic := rfl
@[simp] theorem State.setNetAddr_hCmd : (s.setNetAddr ts a).hCmd = s.hCmd := rfl
@[simp] theorem State.setNetAddr_hSize : (s.setNetAddr ts a).hSize = s.hSize := rfl
@[simp] theorem State.setNetAddr_hCksum : (s.setNetAddr ts a).hCksum = s.hCksum := rfl
@[simp] theorem State.setNetAddr_cmdLen : (s.setNetAddr ts a).cmdLen = s.cmdLen := rfl
@[simp] theorem State.setNetAddr_ck : (s.setNetAddr ts a).ck = s.ck := rfl
@[simp] theorem State.setNetAddr_dlen : (s.setNetAddr ts a).dlen = s.dlen := rfl
@[simp] theorem State.setNetAddr_daddr : (s.setNetAddr ts a).daddr = s.daddr := rfl
@[simp] theorem State.setNetAddr_dbuf : (s.setNetAddr ts a).dbuf = s.dbuf := rfl
@[simp] theorem State.setNetAddr_rxq : (s.setNetAddr ts a).rxq = s.rxq := rfl
@[simp] theorem State.setNetAddr_txq : (s.setNetAddr ts a).txq = s.txq := rfl
@[simp] theorem State.setNetAddr_script : (s.setNetAddr ts a).script = s.script := rfl
@[simp] theorem State.setNetAddr_hostData : (s.setNetAddr ts a).hostData = s.hostData := rfl
@[simp] theorem State.setNetAddr_epoch : (s.setNetAddr ts a).epoch = s.epoch := rfl
@[simp] theorem State.setNetAddr_nextDraw : (s.setNetAddr ts a).nextDraw = s.nextDraw := rfl

end

/-! ### `DADDR <- (DADDR + 1) mod 2^25` (`10_state.md` rule R36) -/

section
variable (s : State)

@[simp] theorem State.daddrNext_cmdl : (s.daddrNext).cmdl = s.cmdl := rfl
@[simp] theorem State.daddrNext_busy : (s.daddrNext).busy = s.busy := rfl
@[simp] theorem State.daddrNext_esticky : (s.daddrNext).esticky = s.esticky := rfl
@[simp] theorem State.daddrNext_rxEof : (s.daddrNext).rxEof = s.rxEof := rfl
@[simp] theorem State.daddrNext_drainshort : (s.daddrNext).drainshort = s.drainshort := rfl
@[simp] theorem State.daddrNext_nats : (s.daddrNext).nats = s.nats := rfl
@[simp] theorem State.daddrNext_err : (s.daddrNext).err = s.err := rfl
@[simp] theorem State.daddrNext_magic : (s.daddrNext).magic = s.magic := rfl
@[simp] theorem State.daddrNext_pver : (s.daddrNext).pver = s.pver := rfl
@[simp] theorem State.daddrNext_tsver : (s.daddrNext).tsver = s.tsver := rfl
@[simp] theorem State.daddrNext_val : (s.daddrNext).val = s.val := rfl
@[simp] theorem State.daddrNext_naTime : (s.daddrNext).naTime = s.naTime := rfl
@[simp] theorem State.daddrNext_naSvc : (s.daddrNext).naSvc = s.naSvc := rfl
@[simp] theorem State.daddrNext_naIp : (s.daddrNext).naIp = s.naIp := rfl
@[simp] theorem State.daddrNext_naPort : (s.daddrNext).naPort = s.naPort := rfl
@[simp] theorem State.daddrNext_hMagic : (s.daddrNext).hMagic = s.hMagic := rfl
@[simp] theorem State.daddrNext_hCmd : (s.daddrNext).hCmd = s.hCmd := rfl
@[simp] theorem State.daddrNext_hSize : (s.daddrNext).hSize = s.hSize := rfl
@[simp] theorem State.daddrNext_hCksum : (s.daddrNext).hCksum = s.hCksum := rfl
@[simp] theorem State.daddrNext_cmdLen : (s.daddrNext).cmdLen = s.cmdLen := rfl
@[simp] theorem State.daddrNext_ck : (s.daddrNext).ck = s.ck := rfl
@[simp] theorem State.daddrNext_dlen : (s.daddrNext).dlen = s.dlen := rfl
@[simp] theorem State.daddrNext_daddr : (s.daddrNext).daddr = s.daddr + 1 := rfl
@[simp] theorem State.daddrNext_dbuf : (s.daddrNext).dbuf = s.dbuf := rfl
@[simp] theorem State.daddrNext_rxq : (s.daddrNext).rxq = s.rxq := rfl
@[simp] theorem State.daddrNext_txq : (s.daddrNext).txq = s.txq := rfl
@[simp] theorem State.daddrNext_script : (s.daddrNext).script = s.script := rfl
@[simp] theorem State.daddrNext_hostData : (s.daddrNext).hostData = s.hostData := rfl
@[simp] theorem State.daddrNext_epoch : (s.daddrNext).epoch = s.epoch := rfl
@[simp] theorem State.daddrNext_nextDraw : (s.daddrNext).nextDraw = s.nextDraw := rfl

end

/-! ### RxEof (`10_state.md` rule R40) -/

section
variable (s : State)

@[simp] theorem State.declareEof_cmdl : (s.declareEof).cmdl = s.cmdl := rfl
@[simp] theorem State.declareEof_busy : (s.declareEof).busy = s.busy := rfl
@[simp] theorem State.declareEof_esticky : (s.declareEof).esticky = s.esticky := rfl
@[simp] theorem State.declareEof_rxEof : (s.declareEof).rxEof = true := rfl
@[simp] theorem State.declareEof_drainshort : (s.declareEof).drainshort = s.drainshort := rfl
@[simp] theorem State.declareEof_nats : (s.declareEof).nats = s.nats := rfl
@[simp] theorem State.declareEof_err : (s.declareEof).err = s.err := rfl
@[simp] theorem State.declareEof_magic : (s.declareEof).magic = s.magic := rfl
@[simp] theorem State.declareEof_pver : (s.declareEof).pver = s.pver := rfl
@[simp] theorem State.declareEof_tsver : (s.declareEof).tsver = s.tsver := rfl
@[simp] theorem State.declareEof_val : (s.declareEof).val = s.val := rfl
@[simp] theorem State.declareEof_naTime : (s.declareEof).naTime = s.naTime := rfl
@[simp] theorem State.declareEof_naSvc : (s.declareEof).naSvc = s.naSvc := rfl
@[simp] theorem State.declareEof_naIp : (s.declareEof).naIp = s.naIp := rfl
@[simp] theorem State.declareEof_naPort : (s.declareEof).naPort = s.naPort := rfl
@[simp] theorem State.declareEof_hMagic : (s.declareEof).hMagic = s.hMagic := rfl
@[simp] theorem State.declareEof_hCmd : (s.declareEof).hCmd = s.hCmd := rfl
@[simp] theorem State.declareEof_hSize : (s.declareEof).hSize = s.hSize := rfl
@[simp] theorem State.declareEof_hCksum : (s.declareEof).hCksum = s.hCksum := rfl
@[simp] theorem State.declareEof_cmdLen : (s.declareEof).cmdLen = s.cmdLen := rfl
@[simp] theorem State.declareEof_ck : (s.declareEof).ck = s.ck := rfl
@[simp] theorem State.declareEof_dlen : (s.declareEof).dlen = s.dlen := rfl
@[simp] theorem State.declareEof_daddr : (s.declareEof).daddr = s.daddr := rfl
@[simp] theorem State.declareEof_dbuf : (s.declareEof).dbuf = s.dbuf := rfl
@[simp] theorem State.declareEof_rxq : (s.declareEof).rxq = s.rxq := rfl
@[simp] theorem State.declareEof_txq : (s.declareEof).txq = s.txq := rfl
@[simp] theorem State.declareEof_script : (s.declareEof).script = s.script := rfl
@[simp] theorem State.declareEof_hostData : (s.declareEof).hostData = s.hostData := rfl
@[simp] theorem State.declareEof_epoch : (s.declareEof).epoch = s.epoch := rfl
@[simp] theorem State.declareEof_nextDraw : (s.declareEof).nextDraw = s.nextDraw := rfl

end

/-! ### TxPop (`10_state.md` rule R40) -/

section
variable (s : State)

@[simp] theorem State.txDrop_cmdl : (s.txDrop).cmdl = s.cmdl := rfl
@[simp] theorem State.txDrop_busy : (s.txDrop).busy = s.busy := rfl
@[simp] theorem State.txDrop_esticky : (s.txDrop).esticky = s.esticky := rfl
@[simp] theorem State.txDrop_rxEof : (s.txDrop).rxEof = s.rxEof := rfl
@[simp] theorem State.txDrop_drainshort : (s.txDrop).drainshort = s.drainshort := rfl
@[simp] theorem State.txDrop_nats : (s.txDrop).nats = s.nats := rfl
@[simp] theorem State.txDrop_err : (s.txDrop).err = s.err := rfl
@[simp] theorem State.txDrop_magic : (s.txDrop).magic = s.magic := rfl
@[simp] theorem State.txDrop_pver : (s.txDrop).pver = s.pver := rfl
@[simp] theorem State.txDrop_tsver : (s.txDrop).tsver = s.tsver := rfl
@[simp] theorem State.txDrop_val : (s.txDrop).val = s.val := rfl
@[simp] theorem State.txDrop_naTime : (s.txDrop).naTime = s.naTime := rfl
@[simp] theorem State.txDrop_naSvc : (s.txDrop).naSvc = s.naSvc := rfl
@[simp] theorem State.txDrop_naIp : (s.txDrop).naIp = s.naIp := rfl
@[simp] theorem State.txDrop_naPort : (s.txDrop).naPort = s.naPort := rfl
@[simp] theorem State.txDrop_hMagic : (s.txDrop).hMagic = s.hMagic := rfl
@[simp] theorem State.txDrop_hCmd : (s.txDrop).hCmd = s.hCmd := rfl
@[simp] theorem State.txDrop_hSize : (s.txDrop).hSize = s.hSize := rfl
@[simp] theorem State.txDrop_hCksum : (s.txDrop).hCksum = s.hCksum := rfl
@[simp] theorem State.txDrop_cmdLen : (s.txDrop).cmdLen = s.cmdLen := rfl
@[simp] theorem State.txDrop_ck : (s.txDrop).ck = s.ck := rfl
@[simp] theorem State.txDrop_dlen : (s.txDrop).dlen = s.dlen := rfl
@[simp] theorem State.txDrop_daddr : (s.txDrop).daddr = s.daddr := rfl
@[simp] theorem State.txDrop_dbuf : (s.txDrop).dbuf = s.dbuf := rfl
@[simp] theorem State.txDrop_rxq : (s.txDrop).rxq = s.rxq := rfl
@[simp] theorem State.txDrop_txq : (s.txDrop).txq = s.txq.drop 1 := rfl
@[simp] theorem State.txDrop_script : (s.txDrop).script = s.script := rfl
@[simp] theorem State.txDrop_hostData : (s.txDrop).hostData = s.hostData := rfl
@[simp] theorem State.txDrop_epoch : (s.txDrop).epoch = s.epoch := rfl
@[simp] theorem State.txDrop_nextDraw : (s.txDrop).nextDraw = s.nextDraw := rfl

end

end Sys2Proof.Machine
end

