-- ==== Sys2Proof/Laws/Memory.lean ====
section
/-! SUPPORT. Lemmas on DBUF: the canonical form is kept, a read after a write gives what was written inside the written
range and what was there outside it (`00_scope.md` rule R14). -/

namespace Sys2Proof.Machine

open Sys2Proof

theorem cellsAt_mem (a : Nat) (bs : List Byte) (c : Host.Cell) (h : c ∈ cellsAt a bs) :
    a ≤ c.1 ∧ c.1 < a + bs.length := by
  induction bs generalizing a with
  | nil => simp [cellsAt] at h
  | cons b bs ih =>
    simp only [cellsAt, List.mem_cons] at h
    rcases h with rfl | h
    · simp
    · have := ih _ h
      simp only [List.length_cons]
      omega

theorem cellsAt_rising (a : Nat) (bs : List Byte) : (cellsAt a bs).Pairwise fun x y => x.1 < y.1 := by
  induction bs generalizing a with
  | nil => exact List.Pairwise.nil
  | cons b bs ih =>
    refine List.Pairwise.cons (fun c hc => ?_) (ih _)
    have := cellsAt_mem _ _ _ hc
    omega

theorem cellsAt_lookup (a : Nat) (bs : List Byte) (x : Nat) :
    (cellsAt a bs).lookup x = if a ≤ x then bs[x - a]? else none := by
  induction bs generalizing a with
  | nil => simp [cellsAt]
  | cons b bs ih =>
    rcases Nat.lt_trichotomy x a with h | rfl | h
    · have h1 : (x == a) = false := by simp; omega
      simp only [cellsAt, List.lookup_cons, h1, ih]
      rw [if_neg (by omega), if_neg (by omega)]
    · simp [cellsAt]
    · have h1 : (x == a) = false := by simp; omega
      have h2 : x - a = (x - (a + 1)) + 1 := by omega
      simp only [cellsAt, List.lookup_cons, h1, ih]
      rw [if_pos (by omega), if_pos (by omega), h2, List.getElem?_cons_succ]

theorem lookup_append (l m : Memory) (x : Nat) : (l ++ m).lookup x = (l.lookup x).or (m.lookup x) := by
  induction l with
  | nil => simp
  | cons c l ih =>
    obtain ⟨k, v⟩ := c
    cases h : x == k <;> simp [List.lookup_cons, h, ih]

theorem lookup_filter (m : Memory) (p : Nat → Bool) (x : Nat) :
    (m.filter fun c => p c.1).lookup x = if p x then m.lookup x else none := by
  induction m with
  | nil => simp
  | cons c m ih =>
    obtain ⟨k, v⟩ := c
    cases hx : x == k
    · cases hk : p k <;> simp [List.lookup_cons, hk, hx, ih]
    · obtain rfl : x = k := by simpa using hx
      cases hk : p x <;> rw [List.filter_cons] <;> simp [hk, ih]

/-- One spec for `Memory.put`: inside the written range the new bytes, outside it the old ones. -/
theorem Memory.put_lookup (m : Memory) (a : Nat) (bs : List Byte) (x : Nat) :
    (m.put a bs).lookup x = if a ≤ x ∧ x < a + bs.length then bs[x - a]? else m.lookup x := by
  unfold Memory.put
  rw [lookup_append, lookup_append, lookup_filter m (fun k => decide (k < a)),
    lookup_filter m (fun k => decide (a + bs.length ≤ k)), cellsAt_lookup]
  by_cases h1 : a ≤ x
  · by_cases h2 : x < a + bs.length
    · have : x - a < bs.length := by omega
      simp [h1, h2, show ¬ x < a by omega, List.getElem?_eq_getElem this]
    · have : bs.length ≤ x - a := by omega
      simp [h1, h2, show ¬ x < a by omega, show a + bs.length ≤ x by omega, List.getElem?_eq_none this]
  · simp [h1, show x < a by omega, show ¬ a + bs.length ≤ x by omega]

/-- A write inside DBUF keeps the canonical form. -/
theorem Memory.put_wf (m : Memory) (a : Nat) (bs : List Byte) (h : m.wf) (hb : a + bs.length ≤ Config.dbufCap) :
    (m.put a bs).wf := by
  obtain ⟨hp, hc⟩ := h
  unfold Memory.put
  refine ⟨?_, ?_⟩
  · rw [List.pairwise_append, List.pairwise_append]
    refine ⟨⟨hp.filter _, cellsAt_rising a bs, ?_⟩, hp.filter _, ?_⟩
    · intro x hx y hy
      have := cellsAt_mem _ _ _ hy
      simp only [List.mem_filter, decide_eq_true_eq] at hx
      omega
    · intro x hx y hy
      simp only [List.mem_append, List.mem_filter, decide_eq_true_eq] at hx hy
      rcases hx with hx | hx
      · omega
      · have := cellsAt_mem _ _ _ hx
        omega
  · intro c hm
    simp only [List.mem_append, List.mem_filter] at hm
    rcases hm with (hm | hm) | hm
    · exact hc c hm.1
    · have := cellsAt_mem _ _ _ hm
      omega
    · exact hc c hm.1

theorem Memory.nil_wf : Memory.wf [] := by simp [Memory.wf]

/-- The memory of the reset state is in canonical form. -/
theorem State.reset_dbuf_wf : State.reset.dbuf.wf := Memory.nil_wf

/-! ### The memory operations of the machine keep the form -/

theorem State.memWrite_wf (s : State) (a : Nat) (bs : List Byte) (h : s.dbuf.wf)
    (hb : a + bs.length ≤ Config.dbufCap) : (s.memWrite a bs).dbuf.wf :=
  Memory.put_wf _ _ _ h hb

theorem State.memUnspecify_wf (s : State) (n : Nat) (h : s.dbuf.wf) (hn : n ≤ Config.dbufCap) :
    (s.memUnspecify n).dbuf.wf :=
  Memory.put_wf _ _ _ h (by simpa using hn)

theorem State.bodyStored_wf (s : State) (b : List Byte) (h : s.dbuf.wf) (hb : b.length ≤ Config.dbufCap) :
    (s.bodyStored b).dbuf.wf :=
  Memory.put_wf _ _ _ h (by simpa using hb)

theorem State.bodyLost_wf (s : State) (n : Nat) (h : s.dbuf.wf) (hn : n ≤ Config.dbufCap) :
    (s.bodyLost n).dbuf.wf :=
  Memory.put_wf _ _ _ h (by simpa using hn)

/-! ### Reads after writes -/

/-- What a byte of DBUF reads as after a write. -/
theorem State.memWrite_dbufByte (s : State) (a : Nat) (bs : List Byte) (x : Nat) :
    (s.memWrite a bs).dbufByte x =
      if h : a ≤ x ∧ x < a + bs.length then bs[x - a]'(by omega) else s.dbufByte x := by
  unfold State.dbufByte
  simp only [State.memWrite_dbuf, State.memWrite_epoch, Memory.put_lookup]
  split
  · next h =>
    have h1 : x - a < bs.length := by omega
    simp [List.getElem?_eq_getElem h1]
  · rfl

/-- A byte of DBUF depends on DBUF's bytes and on the draw of its unwritten ones only. -/
theorem State.dbufByte_congr (s t : State) (hd : t.dbuf = s.dbuf) (he : t.epoch = s.epoch) (x : Nat) :
    t.dbufByte x = s.dbufByte x := by
  simp [State.dbufByte, hd, he]

@[simp] theorem State.memRead_length (s : State) (a n : Nat) : (s.memRead a n).length = n := by
  simp [State.memRead]

/-- `MemRead` of what `MemWrite` has just stored. -/
theorem State.memRead_memWrite (s : State) (a : Nat) (bs : List Byte) :
    (s.memWrite a bs).memRead a bs.length = bs := by
  apply List.ext_getElem
  · simp
  · intro i h1 h2
    simp [State.memRead, State.memWrite_dbufByte, h2]

/-- `MemRead` depends on the bytes read only. -/
theorem State.memRead_congr (s t : State) (a n : Nat) (h : ∀ i, i < n → t.dbufByte (a + i) = s.dbufByte (a + i)) :
    t.memRead a n = s.memRead a n := by
  apply List.map_congr_left
  intro i hi
  exact h i (List.mem_range.mp hi)

/-- Byte `i` of the valid content that a command reads. -/
theorem State.memRead_getElem? (s : State) (n a : Nat) (h : a < n) : (s.memRead 0 n)[a]? = some (s.dbufByte a) := by
  simp [State.memRead, h]

/-- A stored body reads back from address 0. -/
theorem State.bodyStored_dbufByte (s : State) (b : List Byte) (a : Nat) (h : a < b.length) :
    b[a]? = some ((s.bodyStored b).dbufByte a) := by
  have e : (s.bodyStored b).dbufByte a = (s.memWrite 0 b).dbufByte a := rfl
  rw [e, State.memWrite_dbufByte]
  simp [h]

/-- A stored body leaves every byte above it. -/
theorem State.bodyStored_above (s : State) (b : List Byte) (a : Nat) (h : b.length ≤ a) :
    (s.bodyStored b).dbufByte a = s.dbufByte a := by
  have e : (s.bodyStored b).dbufByte a = (s.memWrite 0 b).dbufByte a := rfl
  rw [e, State.memWrite_dbufByte, dif_neg (by omega)]

/-- A lost body leaves every byte at and above its announced length. -/
theorem State.bodyLost_above (s : State) (n a : Nat) (h : n ≤ a) : (s.bodyLost n).dbufByte a = s.dbufByte a := by
  have e : (s.bodyLost n).dbufByte a =
      (s.memWrite 0 ((List.range n).map (Config.freeByte s.nextDraw))).dbufByte a := rfl
  rw [e, State.memWrite_dbufByte, dif_neg (by simp; omega)]

end Sys2Proof.Machine
end

