-- ==== Sys2Proof/Laws/Ops.lean ====
section
/-! SUPPORT. For each shared operation of the meanings, what it can answer, said once: proofs cite these and do not
unfold the operations. -/

namespace Sys2Proof.Machine

open Sys2Proof Host

@[simp] theorem finish_eq (s : State) (c : ErrCode) : finish s c = .next (s.complete c) := rfl

@[simp] theorem hold_eq (s : State) : hold s = .next s := rfl

theorem withBody_eq (s : State) (k : List Byte → Outcome State Fault Refusal) (h : s.dlen.toNat ≤ Config.dbufCap) :
    withBody s k = k (s.memRead 0 s.dlen.toNat) := if_pos h

/-- What a command that reads `DBUF[0..DLEN)` can answer. -/
theorem withBody_cases (s t : State) (k : List Byte → Outcome State Fault Refusal) (h : withBody s k = .next t) :
    s.dlen.toNat ≤ Config.dbufCap ∧ k (s.memRead 0 s.dlen.toNat) = .next t := by
  unfold withBody at h
  split at h
  · exact ⟨‹_›, h⟩
  · cases h

/-- What a command that reads RX can answer (`20_memory.md` rule R53): its results, its error, a short read at end of
stream, or the hold. -/
theorem completeRead_cases {α : Type} (o : DecOut α) (onOk : α → State → State) (onShort : State → State)
    (s t : State) (h : completeRead o onOk onShort s = .next t) :
    (∃ r n, o = .ok r n ∧ t = (onOk r (s.rxTake n)).complete .ok) ∨
    (∃ c n, o = .err c n ∧ t = (s.rxTake n).complete c) ∨
    (o = .short ∧ s.rxEof = true ∧ t = (onShort s).rxClear.complete .ioShortRead) ∨
    (o = .short ∧ s.rxEof = false ∧ t = s) := by
  unfold completeRead at h
  split at h
  · simp only [finish_eq, Outcome.next.injEq] at h
    exact .inl ⟨_, _, rfl, h.symm⟩
  · simp only [finish_eq, Outcome.next.injEq] at h
    exact .inr (.inl ⟨_, _, rfl, h.symm⟩)
  · split at h
    · simp only [finish_eq, Outcome.next.injEq] at h
      exact .inr (.inr (.inl ⟨rfl, ‹_›, h.symm⟩))
    · simp only [hold_eq, Outcome.next.injEq] at h
      exact .inr (.inr (.inr ⟨rfl, Bool.eq_false_iff.mpr ‹_›, h.symm⟩))

/-- A command that reads RX always answers a next state. -/
theorem completeRead_next {α : Type} (o : DecOut α) (onOk : α → State → State) (onShort : State → State) (s : State) :
    ∃ t, completeRead o onOk onShort s = .next t := by
  unfold completeRead
  split
  · exact ⟨_, rfl⟩
  · exact ⟨_, rfl⟩
  · split <;> exact ⟨_, rfl⟩

/-- Outcomes of the read primitive (`20_memory.md` rule R55). -/
theorem getBytes_cases (s : List Byte) (n : Nat) :
    (n ≤ s.length ∧ getBytes s n = .ok (s.take n) n) ∨ (s.length < n ∧ getBytes s n = .short) := by
  unfold getBytes
  split
  · exact .inl ⟨‹_›, rfl⟩
  · exact .inr ⟨by omega, rfl⟩

/-- A write while BUSY = 1 changes nothing (`70_reset_and_hazards.md` rule R250). -/
theorem whenIdle_busy (s : State) (f : State → State) (h : s.busy = true) : s.whenIdle f = s := if_pos h

theorem whenIdle_idle (s : State) (f : State → State) (h : s.busy = false) : s.whenIdle f = f s := by
  simp [State.whenIdle, h]

/-- The code of a result determines whether ESTICKY is set (`60_exceptions.md` rule R216). -/
theorem setsSticky_iff (c : ErrCode) : c.setsSticky = true ↔ c ≠ .ok ∧ c ≠ .ioEof := by
  cases c <;> decide

/-- The numbers of the result codes differ (`60_exceptions.md` rule R211). -/
theorem ErrCode.code_injective (c d : ErrCode) (h : c.code = d.code) : c = d := by
  cases c <;> cases d <;> first | rfl | (revert h; decide)

end Sys2Proof.Machine
end

