-- ==== Sys2Proof/Laws/Exec.lean ====
section
/-! SUPPORT. One inversion lemma for each meaning that can answer in more than one way, and one for the step: if it
answers a next state, then one of these cases holds. -/

namespace Sys2Proof.Machine

open Sys2Proof Host

/-- The two validations of the header parser (`44_header.md` rule R181). -/
theorem headerError_cases (magic : Bytes 4) (h : Header) :
    (h.magic ≠ magic ∧ headerError magic h = some .frameWrongNetwork) ∨
    (h.magic = magic ∧ validText (stripZeros h.cmd.toList) = false ∧
      headerError magic h = some .frameInvalidCommand) ∨
    (h.magic = magic ∧ validText (stripZeros h.cmd.toList) = true ∧ headerError magic h = none) := by
  unfold headerError
  split
  · exact .inl ⟨‹_›, rfl⟩
  · split
    · exact .inr (.inl ⟨not_not.mp ‹_›, by simp_all, rfl⟩)
    · exact .inr (.inr ⟨not_not.mp ‹_›, by simp_all, rfl⟩)

/-- What HDR.DEC can answer (`44_header.md` rule R181): the hold in step 1, the two ends of stream in step 1, the size
bound, success, and a failed validation with its drain, its end of stream inside the drain, and its hold. -/
theorem execHdrDec_cases (s t : State) (h : execHdrDec s = .next t) :
    (s.rxq.length < Config.hdrLen ∧ s.rxEof = false ∧ t = s) ∨
    (s.rxq.length = 0 ∧ s.rxEof = true ∧ t = (s.setDrainshort false).complete .ioEof) ∨
    (0 < s.rxq.length ∧ s.rxq.length < Config.hdrLen ∧ s.rxEof = true ∧
      t = (s.rxClear.setDrainshort false).complete .ioShortRead) ∨
    (Config.hdrLen ≤ s.rxq.length ∧ Config.maxPayload < (headerOf s.rxq).size.toNat ∧
      t = (((s.rxTake Config.hdrLen).latch (headerOf s.rxq)).setDrainshort false).complete .framePayloadTooLarge) ∨
    (Config.hdrLen ≤ s.rxq.length ∧ (headerOf s.rxq).size.toNat ≤ Config.maxPayload ∧
      headerError s.magic (headerOf s.rxq) = none ∧
      t = (((s.rxTake Config.hdrLen).latch (headerOf s.rxq)).setDrainshort false).complete .ok) ∨
    (∃ e, Config.hdrLen ≤ s.rxq.length ∧ (headerOf s.rxq).size.toNat ≤ Config.maxPayload ∧
      headerError s.magic (headerOf s.rxq) = some e ∧
      ((Config.hdrLen + (headerOf s.rxq).size.toNat ≤ s.rxq.length ∧
          t = (((s.rxTake (Config.hdrLen + (headerOf s.rxq).size.toNat)).latch (headerOf s.rxq)).setDrainshort
            false).complete e) ∨
        (s.rxq.length < Config.hdrLen + (headerOf s.rxq).size.toNat ∧ s.rxEof = true ∧
          t = ((s.rxClear.latch (headerOf s.rxq)).setDrainshort true).complete e) ∨
        (s.rxq.length < Config.hdrLen + (headerOf s.rxq).size.toNat ∧ s.rxEof = false ∧ t = s))) := by
  unfold execHdrDec at h
  split at h
  · split at h
    · exact .inl ⟨‹_›, by simp_all, (Outcome.next.inj h).symm⟩
    · have he : s.rxEof = true := by simp_all
      split at h
      · exact .inr (.inl ⟨‹_›, he, (Outcome.next.inj h).symm⟩)
      · exact .inr (.inr (.inl ⟨by omega, ‹_›, he, (Outcome.next.inj h).symm⟩))
  · have hl : Config.hdrLen ≤ s.rxq.length := by omega
    unfold hdrDecBody at h
    split at h
    · exact .inr (.inr (.inr (.inl ⟨hl, ‹_›, (Outcome.next.inj h).symm⟩)))
    · have hz : (headerOf s.rxq).size.toNat ≤ Config.maxPayload := by omega
      split at h
      · exact .inr (.inr (.inr (.inr (.inl ⟨hl, hz, ‹_›, (Outcome.next.inj h).symm⟩))))
      · refine .inr (.inr (.inr (.inr (.inr ⟨_, hl, hz, ‹_›, ?_⟩))))
        split at h
        · exact .inl ⟨‹_›, (Outcome.next.inj h).symm⟩
        · split at h
          · exact .inr (.inl ⟨by omega, ‹_›, (Outcome.next.inj h).symm⟩)
          · exact .inr (.inr ⟨by omega, Bool.eq_false_iff.mpr ‹_›, (Outcome.next.inj h).symm⟩)

/-- HDR.DEC always answers a next state. -/
theorem execHdrDec_next (s : State) : ∃ t, execHdrDec s = .next t := by
  unfold execHdrDec hdrDecBody
  repeat' split
  all_goals exact ⟨_, rfl⟩

/-! The commands that read `DBUF[0..DLEN)` complete whenever DLEN is within its bound. -/

section
variable (s : State) (h : s.dlen.toNat ≤ Config.dbufCap)
include h

theorem execVarstrEnc_eq : execVarstrEnc s =
    .next ((s.txPut (varintEncode s.dlen.toNat ++ s.memRead 0 s.dlen.toNat)).complete .ok) := withBody_eq _ _ h

theorem execBodyWr_eq : execBodyWr s = .next ((s.txPut (s.memRead 0 s.dlen.toNat)).complete .ok) := withBody_eq _ _ h

theorem execCksumGen_eq :
    execCksumGen s = .next ((s.setCk (checksum (s.memRead 0 s.dlen.toNat))).complete .ok) := withBody_eq _ _ h

theorem execCksumVfy_eq : execCksumVfy s = .next ((s.setCk (checksum (s.memRead 0 s.dlen.toNat))).complete
    (if checksum (s.memRead 0 s.dlen.toNat) = s.hCksum then .ok else .frameChecksumMismatch)) := withBody_eq _ _ h

theorem execHdrBuild_eq (hc : s.cmdLen.toNat ≤ Config.cmdLenMax) : execHdrBuild s =
    .next ((s.setHeader (s.builtHeader (s.memRead 0 s.dlen.toNat))).complete .ok) := by
  unfold execHdrBuild
  rw [if_neg (Nat.not_lt.mpr hc), withBody_eq _ _ h]
  rfl

end

/-- A command that reads `DBUF[0..DLEN)` answers a next state only when DLEN is within its bound. -/
theorem execVarstrEnc_dlen (s t : State) (h : execVarstrEnc s = .next t) : s.dlen.toNat ≤ Config.dbufCap :=
  (withBody_cases _ _ _ h).1

theorem execBodyWr_dlen (s t : State) (h : execBodyWr s = .next t) : s.dlen.toNat ≤ Config.dbufCap :=
  (withBody_cases _ _ _ h).1

theorem execCksumGen_dlen (s t : State) (h : execCksumGen s = .next t) : s.dlen.toNat ≤ Config.dbufCap :=
  (withBody_cases _ _ _ h).1

theorem execCksumVfy_dlen (s t : State) (h : execCksumVfy s = .next t) : s.dlen.toNat ≤ Config.dbufCap :=
  (withBody_cases _ _ _ h).1

/-- What HDR.BUILD can answer (`44_header.md` rule R171). -/
theorem execHdrBuild_cases (s t : State) (h : execHdrBuild s = .next t) :
    (Config.cmdLenMax < s.cmdLen.toNat ∧ t = s.complete .cmdBadOperand) ∨
    (s.cmdLen.toNat ≤ Config.cmdLenMax ∧ s.dlen.toNat ≤ Config.dbufCap ∧
      t = (s.setHeader (s.builtHeader (s.memRead 0 s.dlen.toNat))).complete .ok) := by
  unfold execHdrBuild at h
  split at h
  · exact .inl ⟨‹_›, (Outcome.next.inj h).symm⟩
  · obtain ⟨h1, h2⟩ := withBody_cases _ _ _ h
    exact .inr ⟨by omega, h1, (Outcome.next.inj h2).symm⟩

/-- What BODY.RD can answer (`45_body_system.md` rule R196). -/
theorem execBodyRd_cases (s t : State) (h : execBodyRd s = .next t) :
    (Config.maxPayload < s.hSize.toNat ∧ t = s.complete .framePayloadTooLarge) ∨
    (s.hSize.toNat ≤ Config.maxPayload ∧ s.hSize.toNat ≤ s.rxq.length ∧
      t = ((s.rxTake s.hSize.toNat).bodyStored (s.rxq.take s.hSize.toNat)).complete .ok) ∨
    (s.hSize.toNat ≤ Config.maxPayload ∧ s.rxq.length < s.hSize.toNat ∧ s.rxEof = true ∧
      t = (s.bodyLost s.hSize.toNat).rxClear.complete .ioShortRead) ∨
    (s.hSize.toNat ≤ Config.maxPayload ∧ s.rxq.length < s.hSize.toNat ∧ s.rxEof = false ∧ t = s) := by
  unfold execBodyRd at h
  split at h
  · exact .inl ⟨‹_›, (Outcome.next.inj h).symm⟩
  · have hz : s.hSize.toNat ≤ Config.maxPayload := by omega
    rcases getBytes_cases s.rxq s.hSize.toNat with ⟨hl, hg⟩ | ⟨hl, hg⟩
    · rw [hg] at h
      exact .inr (.inl ⟨hz, hl, (Outcome.next.inj h).symm⟩)
    · rcases completeRead_cases _ _ _ _ _ h with ⟨r, n, ho, _⟩ | ⟨c, n, ho, _⟩ | ⟨_, he, ht⟩ | ⟨_, he, ht⟩
      · rw [hg] at ho; cases ho
      · rw [hg] at ho; cases ho
      · exact .inr (.inr (.inl ⟨hz, hl, he, ht⟩))
      · exact .inr (.inr (.inr ⟨hz, hl, he, ht⟩))

/-- BODY.RD always answers a next state. -/
theorem execBodyRd_next (s : State) : ∃ t, execBodyRd s = .next t := by
  unfold execBodyRd
  split
  · exact ⟨_, rfl⟩
  · exact completeRead_next _ _ _ _

/-- What VARINT.DEC can answer (`40_varint.md` rule R105). -/
theorem execVarintDec_cases (s t : State) (h : execVarintDec s = .next t) :
    (∃ v n, varintDecode s.rxq = .ok v n ∧ t = { s.rxTake n with val := BitVec.ofNat 64 v }.complete .ok) ∨
    (∃ n, varintDecode s.rxq = .err .protoNoncanonicalVarint n ∧
      t = (s.rxTake n).complete .protoNoncanonicalVarint) ∨
    (varintDecode s.rxq = .short ∧ s.rxEof = true ∧ t = s.rxClear.complete .ioShortRead) ∨
    (varintDecode s.rxq = .short ∧ s.rxEof = false ∧ t = s) := by
  rcases completeRead_cases _ _ _ _ _ h with h' | ⟨c, n, ho, ht⟩ | h' | h'
  · exact .inl h'
  · obtain ⟨rfl, -⟩ := varintDecode_err _ _ _ ho
    exact .inr (.inl ⟨n, ho, ht⟩)
  · exact .inr (.inr (.inl h'))
  · exact .inr (.inr (.inr h'))

/-- What an end of stream inside a varstring does to the state (`41_varstring.md` rule R119). -/
theorem varstrShort_cases (s : State) :
    (∃ l n, varintDecode s.rxq = .ok l n ∧ l ≤ Config.maxPayload ∧ varstrShort s = s.bodyLost l) ∨
    ((∀ l n, varintDecode s.rxq = .ok l n → Config.maxPayload < l) ∧ varstrShort s = s) := by
  unfold varstrShort
  cases hv : varintDecode s.rxq with
  | ok l n =>
    by_cases hl : l ≤ Config.maxPayload
    · exact .inl ⟨l, n, rfl, hl, if_pos hl⟩
    · refine .inr ⟨fun l' n' h => ?_, if_neg hl⟩
      cases h
      omega
  | err c n => exact .inr ⟨fun _ _ h => (by cases h), rfl⟩
  | short => exact .inr ⟨fun _ _ h => (by cases h), rfl⟩

/-- What VARSTR.DEC can answer (`41_varstring.md` rule R119). -/
theorem execVarstrDec_cases (s t : State) (h : execVarstrDec s = .next t) :
    (∃ b n, varstrDecode s.rxq = .ok b n ∧ t = ((s.rxTake n).bodyStored b).complete .ok) ∨
    (∃ c n, varstrDecode s.rxq = .err c n ∧ (c = .protoNoncanonicalVarint ∨ c = .protoVarstringTooLong) ∧
      t = (s.rxTake n).complete c) ∨
    (varstrDecode s.rxq = .short ∧ s.rxEof = true ∧ t = (varstrShort s).rxClear.complete .ioShortRead) ∨
    (varstrDecode s.rxq = .short ∧ s.rxEof = false ∧ t = s) := by
  rcases completeRead_cases _ _ _ _ _ h with h' | ⟨c, n, ho, ht⟩ | h' | h'
  · exact .inl h'
  · refine .inr (.inl ⟨c, n, ho, ?_, ht⟩)
    rcases varstrDecode_cases s.rxq with ⟨_, hd⟩ | ⟨c', n', hv, hd⟩ | ⟨l, n', _, _, hd⟩ | ⟨_, _, _, _, _, hd⟩ |
      ⟨_, _, _, _, _, hd⟩ <;> rw [hd] at ho <;> cases ho
    · exact .inl (varintDecode_err _ _ _ hv).1
    · exact .inr rfl
  · exact .inr (.inr (.inl h'))
  · exact .inr (.inr (.inr h'))

/-- What NETADDR.DEC can answer (`42_netaddress.md` rule R135). -/
theorem execNetaddrDec_cases (t : Bool) (s u : State) (h : execNetaddrDec t s = .next u) :
    (∃ a n, netaddrDecode (hasTs t s.pver s.tsver) s.rxq = .ok a n ∧
      u = ((s.rxTake n).setNetAddr (hasTs t s.pver s.tsver) a).complete .ok) ∨
    (netaddrDecode (hasTs t s.pver s.tsver) s.rxq = .short ∧ s.rxEof = true ∧
      u = s.rxClear.complete .ioShortRead) ∨
    (netaddrDecode (hasTs t s.pver s.tsver) s.rxq = .short ∧ s.rxEof = false ∧ u = s) := by
  rcases completeRead_cases _ _ _ _ _ h with h' | ⟨c, n, ho, _⟩ | h' | h'
  · exact .inl h'
  · rcases netaddrDecode_cases (hasTs t s.pver s.tsver) s.rxq with ⟨_, hd⟩ | ⟨_, a, hd⟩ <;> rw [hd] at ho <;> cases ho
  · exact .inr (.inl h')
  · exact .inr (.inr h')

/-- What the engine's turn can be (`20_memory.md` rule R53). -/
theorem engineAct_cases (s : State) :
    (s.busy = false ∧ engineAct s = .next s) ∨
    (s.busy = true ∧ ∃ i, decode s.cmdl = .ok i ∧ engineAct s = exec i s) ∨
    (s.busy = true ∧ (∃ e, decode s.cmdl = .error e) ∧ engineAct s = .next (s.complete .cmdIllegal)) := by
  unfold engineAct
  cases hb : s.busy
  · exact .inl ⟨rfl, rfl⟩
  · cases hd : decode s.cmdl with
    | ok i => exact .inr (.inl ⟨rfl, i, rfl, rfl⟩)
    | error e => exact .inr (.inr ⟨rfl, ⟨e, rfl⟩, rfl⟩)

/-- What a step can be: the engine's turn, or one action of the host, with that turn gone from the schedule. -/
theorem step_cases (s : State) :
    ((s.script = [] ∨ ∃ rest, s.script = .engine :: rest) ∧ step s = engineAct { s with script := s.script.tail }) ∨
    (∃ a rest, s.script = .host a :: rest ∧ step s = hostAct a { s with script := rest }) := by
  obtain ⟨sc, hsc⟩ : ∃ sc, s.script = sc := ⟨_, rfl⟩
  match sc with
  | [] =>
    have hs : { s with script := s.script.tail } = s := by rw [hsc]; cases s; simp_all
    exact .inl ⟨.inl hsc, by rw [hs]; simp [step, hsc]⟩
  | .engine :: rest => exact .inl ⟨.inr ⟨rest, hsc⟩, by simp [step, hsc]⟩
  | .host a :: rest => exact .inr ⟨a, rest, hsc, by simp [step, hsc]⟩

end Sys2Proof.Machine
end

