-- ==== Sys2Proof/Laws/PerInstr.lean ====
section
/-! SUPPORT. A statement about each command as syntax: the fields of its word pass the three checks of `30_encoding.md`
rule R78, so its word is one of the legal ones. -/

namespace Sys2Proof.Laws.WordLegal

open Sys2Proof

/-- The word of the command is legal (rule R78). -/
abbrev Statement (i : Instr) : Prop := i.fields.legal = true

theorem nop : Statement .nop := by decide
theorem varintEnc : Statement .varintEnc := by decide
theorem varintDec : Statement .varintDec := by decide
theorem varstrEnc : Statement .varstrEnc := by decide
theorem varstrDec : Statement .varstrDec := by decide
theorem netaddrEnc (t : Bool) : Statement (.netaddrEnc t) := by cases t <;> decide
theorem netaddrDec (t : Bool) : Statement (.netaddrDec t) := by cases t <;> decide
theorem cksumGen : Statement .cksumGen := by decide
theorem cksumVfy : Statement .cksumVfy := by decide
theorem hdrBuild : Statement .hdrBuild := by decide
theorem hdrEnc : Statement .hdrEnc := by decide
theorem hdrDec : Statement .hdrDec := by decide
theorem bodyRd : Statement .bodyRd := by decide
theorem bodyWr : Statement .bodyWr := by decide
theorem clrerr : Statement .clrerr := by decide

end Sys2Proof.Laws.WordLegal
end

