-- ==== Sys2Proof/Laws/Safety.lean ====
section
/-! SUPPORT. Lemmas on the predicates of `Safety.lean`: what a completion reports, and that the invariant survives one. -/

namespace Sys2Proof.Machine

open Sys2Proof Host

/-- A completion reports its code (`60_exceptions.md` rule R216). -/
theorem complete_endsWith (c : ErrCode) (s u : State) (h : u.esticky = s.esticky) : EndsWith c s (u.complete c) := by
  refine ⟨rfl, ?_, rfl⟩
  cases c <;> simp [State.complete, ErrCode.setsSticky, ErrCode.code, h]

/-- What a completed state needs for the invariant: nothing of ERR and ESTICKY, which the completion itself writes. -/
theorem complete_inv (c : ErrCode) (u : State) (hc : c.producible = true) (hd : u.dlen.toNat ≤ Config.dbufCap)
    (hw : u.dbuf.wf) (hs : c = .ioShortRead ∨ c = .ioEof → u.rxEof = true ∧ u.rxq = [])
    (hds : u.drainshort = true → u.rxEof = true ∧ u.rxq = []) (he : u.epoch < u.nextDraw) : (u.complete c).Inv := by
  refine ⟨hd, hw, ⟨c, hc, rfl⟩, ?_, ?_, hds, he⟩
  · simp only [State.complete]
    cases c <;> simp [ErrCode.setsSticky, ErrCode.code]
  · intro h
    apply hs
    revert h
    cases c <;> simp [State.complete, ErrCode.code]

/-- The two validation failures of a header (`44_header.md` rule R181). -/
theorem headerError_some (magic : Bytes 4) (h : Header) (e : ErrCode) (he : headerError magic h = some e) :
    e = .frameWrongNetwork ∨ e = .frameInvalidCommand := by
  rcases headerError_cases magic h with ⟨_, h'⟩ | ⟨_, _, h'⟩ | ⟨_, _, h'⟩ <;> rw [h'] at he <;> cases he
  · exact .inl rfl
  · exact .inr rfl

/-- A word of a byte array is its four bytes, the first lowest (`10_state.md` rule R26). -/
theorem arrayWord_eq_wordOfBytes {n : Nat} (a : Bytes n) (k : Nat) (h : 4 * k + 4 ≤ n) :
    arrayWord a k = wordOfBytes a[4 * k] a[4 * k + 1] a[4 * k + 2] a[4 * k + 3] := by
  have hs : slice a.toList (4 * k) (4 * k + 4) = [a[4 * k], a[4 * k + 1], a[4 * k + 2], a[4 * k + 3]] := by
    unfold slice
    apply List.ext_getElem?
    intro i
    rcases i with _ | _ | _ | _ | i <;>
      simp [show 4 * k + 1 < n by omega, show 4 * k + 2 < n by omega, show 4 * k + 3 < n by omega,
        show 4 * k < n by omega]
  unfold arrayWord leWord wordOfBytes
  rw [hs]
  generalize a[4 * k]'_ = b0
  generalize a[4 * k + 1]'_ = b1
  generalize a[4 * k + 2]'_ = b2
  generalize a[4 * k + 3]'_ = b3
  apply BitVec.eq_of_toNat_eq
  have h3 := b3.isLt
  simp only [le, BitVec.toNat_append, BitVec.toNat_ofNat]
  rw [← Nat.shiftLeft_add_eq_or_of_lt b0.isLt, ← Nat.shiftLeft_add_eq_or_of_lt b1.isLt,
    ← Nat.shiftLeft_add_eq_or_of_lt b2.isLt]
  simp only [Nat.shiftLeft_eq]
  omega

end Sys2Proof.Machine
end

