-- ==== Sys2Proof/Tests/Slice0.lean ====
section
/-! SUPPORT. The model's own tests: the ill-formed terms the checks refuse, the decoding of words written out from the
spec's encodings, single steps with results from `95_test_vectors.md` and the command rules, and for every statement with
hypotheses a state and operands that meet them. -/

namespace Sys2Proof.Tests

open Sys2Proof Sys2Proof.Machine Host

/-! ### WellFormed: each check refuses an ill-formed term (`30_encoding.md` rule R78, `20_memory.md` rule R61) -/

theorem test_reserved_op_refused : CmdWord.opAssigned ⟨0xF, 0, false⟩ = false ∧ CmdWord.legal ⟨0xF, 0, false⟩ = false := by
  decide

theorem test_reserved_bits_refused : CmdWord.reservedZero ⟨0x0, 1, false⟩ = false ∧ CmdWord.legal ⟨0x0, 1, false⟩ = false := by
  decide

theorem test_stray_flag_refused : CmdWord.flagAllowed ⟨0x1, 0, true⟩ = false ∧ CmdWord.legal ⟨0x1, 0, true⟩ = false := by
  decide

theorem test_bus_width_refused : busWidthOk 2 = false ∧ busAccessOk 2 0x08 = false := by decide

theorem test_bus_offset_refused : busOffsetOk 0x06 = false ∧ busAccessOk 4 0x06 = false := by decide

/-! ### Decode: OP in bits 7:4, RSV in bits 3:1, T in bit 0 (`30_encoding.md` rules R75, R77) -/

theorem test_decode_nop : decode 0b0000_000_0 = .ok .nop := by decide
theorem test_decode_varintEnc : decode 0b0001_000_0 = .ok .varintEnc := by decide
theorem test_decode_varintDec : decode 0b0010_000_0 = .ok .varintDec := by decide
theorem test_decode_varstrEnc : decode 0b0011_000_0 = .ok .varstrEnc := by decide
theorem test_decode_varstrDec : decode 0b0100_000_0 = .ok .varstrDec := by decide
theorem test_decode_netaddrEnc : decode 0b0101_000_0 = .ok (.netaddrEnc false) ∧
    decode 0b0101_000_1 = .ok (.netaddrEnc true) := by decide
theorem test_decode_netaddrDec : decode 0b0110_000_0 = .ok (.netaddrDec false) ∧
    decode 0b0110_000_1 = .ok (.netaddrDec true) := by decide
theorem test_decode_cksumGen : decode 0b0111_000_0 = .ok .cksumGen := by decide
theorem test_decode_cksumVfy : decode 0b1000_000_0 = .ok .cksumVfy := by decide
theorem test_decode_hdrBuild : decode 0b1001_000_0 = .ok .hdrBuild := by decide
theorem test_decode_hdrEnc : decode 0b1010_000_0 = .ok .hdrEnc := by decide
theorem test_decode_hdrDec : decode 0b1011_000_0 = .ok .hdrDec := by decide
theorem test_decode_bodyRd : decode 0b1100_000_0 = .ok .bodyRd := by decide
theorem test_decode_bodyWr : decode 0b1101_000_0 = .ok .bodyWr := by decide
theorem test_decode_clrerr : decode 0b1110_000_0 = .ok .clrerr := by decide

/-- The illegal samples of `95_test_vectors.md` part 2.12, by the condition of rule R78 that makes each illegal. -/
theorem test_decode_rejects : decode 0xF0 = .error .reservedOp ∧ decode 0xFF = .error .reservedOp ∧
    decode 0x52 = .error .reservedBits ∧ decode 0x58 = .error .reservedBits ∧ decode 0x0F = .error .reservedBits ∧
    decode 0x01 = .error .strayFlag ∧ decode 0xE1 = .error .strayFlag ∧ decodeBytes [0x00, 0x00] = .error .wrongLength := by
  decide

/-! ### Single steps -/

/-- The reset state with bytes queued in RX. -/
def withRx (rx : List Byte) (eof : Bool) : State :=
  { State.reset with rxq := rx, rxEof := eof }

/-- The reset state with a body in DBUF. -/
def withDbuf (bs : List Byte) : State :=
  { State.reset with dbuf := cellsAt 0 bs, dlen := BitVec.ofNat 26 bs.length }

/-- The state after the step that runs the command word `w` in the state `s`. -/
def after (s : State) (w : Nat) : Option State :=
  match step (s.withFetchWord 8 w) with
  | .next t => some t
  | _ => none

/-- The magic of the spec's examples (`70_reset_and_hazards.md` rule R245). -/
def exampleMagic : Bytes 4 :=
  #v[0xF9, 0xBE, 0xB4, 0xD9]

/-- The 16-byte IP of the spec's examples (`42_netaddress.md` rule R133). -/
def exampleIp : Bytes 16 :=
  ipv4Mapped 0x7F 0x00 0x00 0x01

/-- `HDR(m, tok, z, k)` of `95_test_vectors.md` part 2.10. -/
def exampleHeader (magic tok : List Byte) (z : Nat) (k : List Byte) : List Byte :=
  magic ++ tok ++ List.replicate (12 - tok.length) 0x00 ++ leBytes 4 z ++ k

/-- Part 2.1, row 0x203. -/
theorem test_varintEnc_three_bytes :
    (after { State.reset with val := 0x203 } 0x10).map (fun t => (t.txq, t.err, t.busy)) =
      some ([0xFD, 0x03, 0x02], 0x00, false) := by decide

/-- Part 2.1, row 0x0123456789ABCDEF. -/
theorem test_varintEnc_nine_bytes :
    (after { State.reset with val := 0x0123456789ABCDEF } 0x10).map (fun t => t.txq) =
      some [0xFF, 0xEF, 0xCD, 0xAB, 0x89, 0x67, 0x45, 0x23, 0x01] := by decide

/-- Rule R105's example. -/
theorem test_varintDec_leaves_the_rest :
    (after (withRx [0xFD, 0x03, 0x02, 0xAA] false) 0x20).map (fun t => (t.val, t.rxq, t.err, t.esticky)) =
      some (0x203, [0xAA], 0x00, false) := by decide

/-- Part 2.2: a rejected encoding is consumed whole. -/
theorem test_varintDec_noncanonical :
    (after { withRx [0xFD, 0xFC, 0x00, 0xAA] false with val := 0x5555 } 0x20).map
      (fun t => (t.val, t.rxq, t.err, t.esticky)) = some (0x5555, [0xAA], 0x21, true) := by decide

/-- Rule R117's example. -/
theorem test_varstrEnc_abc :
    (after (withDbuf [0x61, 0x62, 0x63]) 0x30).map (fun t => t.txq) = some [0x03, 0x61, 0x62, 0x63] := by decide

/-- Part 2.4: a body replaces DBUF and DLEN. -/
theorem test_varstrDec_abc :
    (after { withRx [0x03, 0x61, 0x62, 0x63, 0xFF] false with dbuf := cellsAt 0 [0x99, 0x98], dlen := 2 } 0x40).map
      (fun t => (t.dbuf, t.dlen, t.rxq)) = some (cellsAt 0 [0x61, 0x62, 0x63], 3, [0xFF]) := by decide

/-- Part 2.4: the smallest rejected length; only the prefix is consumed. -/
theorem test_varstrDec_too_long :
    (after { withRx [0xFE, 0x01, 0x00, 0x00, 0x02, 0xAA] false with dlen := 2 } 0x40).map
      (fun t => (t.dlen, t.rxq, t.err)) = some (2, [0xAA], 0x22) := by decide

/-- Part 2.5 with T = 1: PVER = TSVER carries the timestamp; the port is big-endian. -/
theorem test_netaddrEnc_with_time :
    (after { State.reset with
        pver := 31402, tsver := 31402, naTime := 0x495FAB29, naSvc := 0x409, naIp := exampleIp, naPort := 0x208D } 0x51).map
      (fun t => t.txq) =
    some ([0x29, 0xAB, 0x5F, 0x49, 0x09, 0x04, 0x00, 0x00, 0x00, 0x00, 0x00, 0x00] ++
      [0x00, 0x00, 0x00, 0x00, 0x00, 0x00, 0x00, 0x00, 0x00, 0x00, 0xFF, 0xFF, 0x7F, 0x00, 0x00, 0x01, 0x20, 0x8D]) := by
  decide

/-- Part 2.5: T = 1 below the threshold carries none. -/
theorem test_netaddrEnc_below_threshold :
    (after { State.reset with pver := 31401, tsver := 31402, naSvc := 0x409, naPort := 0x208D } 0x51).map
      (fun t => t.txq.length) = some 26 := by decide

/-- Part 2.6, the disagreement on the timestamp (services 1, word 0x60). -/
theorem test_netaddrDec_shifted :
    (after { withRx ([0x29, 0xAB, 0x5F, 0x49, 0x01, 0x00, 0x00, 0x00, 0x00, 0x00, 0x00, 0x00] ++
        [0x00, 0x00, 0x00, 0x00, 0x00, 0x00, 0x00, 0x00, 0x00, 0x00, 0xFF, 0xFF, 0x7F, 0x00, 0x00, 0x01, 0x20, 0x8D])
        false with naTime := 0x77 } 0x60).map (fun t => (t.naTime, t.naSvc, t.naPort, t.rxq)) =
      some (0, 0x00000001495FAB29, 0x7F00, [0x00, 0x01, 0x20, 0x8D]) := by decide

/-- Part 2.6: the timestamp is read and NATS says so. -/
theorem test_netaddrDec_with_time :
    (after { withRx ([0x29, 0xAB, 0x5F, 0x49, 0x09, 0x04, 0x00, 0x00, 0x00, 0x00, 0x00, 0x00] ++
        [0x00, 0x00, 0x00, 0x00, 0x00, 0x00, 0x00, 0x00, 0x00, 0x00, 0xFF, 0xFF, 0x7F, 0x00, 0x00, 0x01, 0x20, 0x8D, 0xEE])
        false with pver := 70015, tsver := 31402 } 0x61).map
      (fun t => (t.naTime, t.naIp.toList, t.naPort, t.nats, t.rxq)) =
      some (0x495FAB29, exampleIp.toList, 0x208D, true, [0xEE]) := by decide

/-- Part 2.8: the checksum of nothing. -/
theorem test_cksumGen_empty :
    (after State.reset 0x70).map (fun t => (t.ck, t.err)) = some (#v[0x5D, 0xF6, 0xE0, 0xE2], 0x00) := by
  decide +kernel

/-- Part 2.7: two blocks (56 bytes, k = 63) and one block with no padding zero (55 bytes). -/
theorem test_checksum_padding_boundary :
    checksum (List.replicate 55 0x61) = #v[0x56, 0x6D, 0xBB, 0x7F] ∧
    checksum (List.replicate 56 0x61) = #v[0x12, 0x2C, 0xF0, 0xFA] := by decide +kernel

/-- Part 2.8: the last byte differs; CK is written all the same. -/
theorem test_cksumVfy_last_byte :
    (after { withDbuf [1, 2, 3, 4, 5, 6, 7, 8] with hCksum := #v[0x25, 0x02, 0xFA, 0x95] } 0x80).map
      (fun t => (t.ck, t.err, t.esticky)) = some (#v[0x25, 0x02, 0xFA, 0x94], 0x14, true) := by decide +kernel

/-- Part 2.8: a match. -/
theorem test_cksumVfy_match :
    (after { withDbuf [1, 2, 3, 4, 5, 6, 7, 8] with hCksum := #v[0x25, 0x02, 0xFA, 0x94] } 0x80).map
      (fun t => (t.err, t.esticky)) = some (0x00, false) := by decide +kernel

/-- Part 2.9, the `ping` row: stale bytes of the command field are overwritten with zeros. -/
theorem test_hdrBuild_ping :
    (after { withDbuf [1, 2, 3, 4, 5, 6, 7, 8] with
        magic := exampleMagic, cmdLen := 4,
        hCmd := #v[0x70, 0x69, 0x6E, 0x67, 0xEE, 0xEE, 0xEE, 0xEE, 0xEE, 0xEE, 0xEE, 0xEE] } 0x90).map
      (fun t => (t.hMagic, t.hCmd, t.hSize, t.hCksum)) =
    some (exampleMagic, Token.ping.field, 8, #v[0x25, 0x02, 0xFA, 0x94]) := by decide +kernel

/-- Part 2.9: CMD_LEN = 13. -/
theorem test_hdrBuild_bad_operand :
    (after { State.reset with magic := exampleMagic, cmdLen := 13 } 0x90).map
      (fun t => (t.hMagic.toList, t.err, t.esticky)) = some ([0, 0, 0, 0], 0xF2, true) := by decide

/-- Part 2.9: HDR.ENC validates nothing. -/
theorem test_hdrEnc_as_it_stands :
    (after { State.reset with
        hMagic := #v[1, 2, 3, 4], hCmd := Vector.replicate 12 0xFF, hSize := 0x01020304,
        hCksum := #v[0x0A, 0x0B, 0x0C, 0x0D] } 0xA0).map (fun t => t.txq) =
    some ([1, 2, 3, 4] ++ List.replicate 12 0xFF ++ [0x04, 0x03, 0x02, 0x01, 0x0A, 0x0B, 0x0C, 0x0D]) := by decide

/-- Part 2.10, row 11: the payload of a foreign message is dropped and the next header is at the front. -/
theorem test_hdrDec_foreign_magic :
    (after { withRx (exampleHeader [0x0B, 0x11, 0x09, 0x07] Token.inv.text 3 [1, 2, 3, 4] ++ [0x11, 0x22, 0x33] ++ [0xF9])
        false with magic := exampleMagic } 0xB0).map (fun t => (t.hSize, t.cmdLen, t.rxq, t.err, t.drainshort)) =
      some (3, 3, [0xF9], 0x11, false) := by decide

/-- Part 2.10, row 10: the size bound comes before the magic, and nothing is drained. -/
theorem test_hdrDec_size_first :
    (after { withRx (exampleHeader [0x0B, 0x11, 0x09, 0x07] Token.block.text 0xFFFFFFFF [1, 2, 3, 4] ++ [0xAA, 0xBB])
        false with magic := exampleMagic } 0xB0).map (fun t => (t.hSize, t.rxq, t.err)) =
      some (0xFFFFFFFF, [0xAA, 0xBB], 0x12) := by decide

/-- Part 2.11, row 1. -/
theorem test_bodyRd_eight :
    (after { withRx [1, 2, 3, 4, 5, 6, 7, 8, 0xF9] false with
        hSize := 8, dbuf := cellsAt 0 [0x99, 0x98], dlen := 2 } 0xC0).map (fun t => (t.dbuf, t.dlen, t.rxq)) =
      some (cellsAt 0 [1, 2, 3, 4, 5, 6, 7, 8], 8, [0xF9]) := by decide

/-- Part 2.11, row 4: the stream ends inside the body. -/
theorem test_bodyRd_short :
    (after { withRx [1, 2, 3, 4, 5] true with hSize := 8, dlen := 2 } 0xC0).map (fun t => (t.dlen, t.rxq, t.err)) =
      some (0, [], 0x31) := by decide

/-- Part 2.11: BODY.WR does not look at H_SIZE. -/
theorem test_bodyWr_eight :
    (after { withDbuf [1, 2, 3, 4, 5, 6, 7, 8] with hSize := 3 } 0xD0).map (fun t => t.txq) =
      some [1, 2, 3, 4, 5, 6, 7, 8] := by decide

/-- Part 2.13: NOP leaves ESTICKY. -/
theorem test_nop_leaves_esticky :
    (after { withRx [] true with err := 0x14, esticky := true, drainshort := true } 0x00).map
      (fun t => (t.err, t.esticky, t.rxEof, t.drainshort)) = some (0x00, true, true, true) := by decide

/-- Part 2.13: CLRERR clears it, and nothing else. -/
theorem test_clrerr_clears_esticky :
    (after { withRx [] true with err := 0x14, esticky := true, drainshort := true } 0xE0).map
      (fun t => (t.err, t.esticky, t.rxEof, t.drainshort)) = some (0x00, false, true, true) := by decide

/-- Part 2.12: bits 31:8 of the issued word are ignored, so 0xABCDEF10 is VARINT.ENC. -/
theorem test_issue_ignores_high_bits :
    (State.reset.issue 0xABCDEF10).cmdl = 0x10 ∧ (State.reset.issue 0xABCDEF10).busy = true := by decide

/-- Part 2.12: an illegal word reports CMD_ILLEGAL. -/
theorem test_illegal_word :
    (after State.reset 0x52).map (fun t => (t.err, t.esticky, t.busy)) = some (0xF1, true, false) := by decide

/-- The token table of `30_encoding.md` rule R88. -/
theorem test_token_fields : Token.version.field.toList =
    [0x76, 0x65, 0x72, 0x73, 0x69, 0x6F, 0x6E, 0x00, 0x00, 0x00, 0x00, 0x00] ∧
    Token.getdata.field.toList = [0x67, 0x65, 0x74, 0x64, 0x61, 0x74, 0x61, 0x00, 0x00, 0x00, 0x00, 0x00] := by decide

/-! ### Witnesses: states and operands that meet the hypotheses of each statement -/

/-- A state in which the command word `w` is latched. -/
def latched (w : Byte) (rx : List Byte) (eof : Bool) : State :=
  { withRx rx eof with cmdl := w, busy := true }

/-- Each condition of rule R78 makes some word illegal while the block is idle. -/
theorem witness_SeventeenWordsAreLegal : State.reset.busy = false ∧
    decode ((0xFFFFFFF0 : Word).setWidth 8) = .error .reservedOp ∧
    decode ((0x0000000E : Word).setWidth 8) = .error .reservedBits ∧
    decode ((0x000000E1 : Word).setWidth 8) = .error .strayFlag := by decide

theorem witness_IllegalWordOnlyReports :
    ∃ (s : State) (e : Reject), s.busy = true ∧ decode s.cmdl = .error e :=
  ⟨latched 0xF0 [] false, .reservedOp, by decide⟩

theorem witness_DecodeAndEncodeAgree : decode 0x51 = .ok (.netaddrEnc true) ∧ decode 0xE0 = .ok .clrerr := by decide

theorem witness_StepRunsTheLatchedCommand :
    ((latched 0x20 [] false).script = [] ∧ (latched 0x20 [] false).busy = true ∧
      decode (latched 0x20 [] false).cmdl = .ok .varintDec) ∧
    (∃ rest, ({ latched 0x20 [] false with script := [.engine] } : State).script = .engine :: rest) ∧
    (State.reset.script = [] ∧ State.reset.busy = false) ∧
    (∃ a rest, ({ State.reset with script := [.host .rxEof] } : State).script = .host a :: rest) :=
  ⟨by decide, ⟨[], rfl⟩, by decide, ⟨.rxEof, [], rfl⟩⟩

/-- A state of the invariant with an error still in ERR. -/
theorem witness_inv : ({ withRx [] true with err := 0x31, esticky := true } : State).Inv :=
  ⟨by decide, Memory.nil_wf, ⟨.ioShortRead, rfl, rfl⟩, by decide, by decide, by decide, by decide⟩

theorem witness_EveryStepKeepsTheInvariant :
    ∃ s t : State, s.Inv ∧ step s = .next t :=
  ⟨_, _, witness_inv, rfl⟩

theorem witness_NoStepStopsTheBlock :
    ∃ s : State, s.Inv ∧ (∀ a rest, s.script = .host a :: rest → (Turn.host a).withinSpec = true) ∧
      s.script = [.host (.busRead 4 0x04)] :=
  ⟨{ withRx [] true with err := 0x31, esticky := true, script := [.host (.busRead 4 0x04)] },
    ⟨by decide, Memory.nil_wf, ⟨.ioShortRead, rfl, rfl⟩, by decide, by decide, by decide, by decide⟩,
    fun a rest h => by cases h; rfl, rfl⟩

theorem witness_EndOfStreamIsPermanent :
    ∃ s t : State, s.rxEof = true ∧ (∀ rest, s.script ≠ .host .reset :: rest) ∧ step s = .next t ∧ s.rxq ≠ t.rxq :=
  ⟨latched 0x20 [0x05] true, _, rfl, fun _ h => (by cases h), rfl, by decide⟩

theorem witness_CommandsMoveTheStreamsOneWay :
    (∃ t, exec .varintDec (latched 0x20 [0x05] false) = .next t) ∧ readsRx .varintDec = true ∧
    (∃ t, exec .varintEnc (latched 0x10 [] false) = .next t) ∧ writesTx .varintEnc = true ∧
    (∃ t, exec .nop (latched 0x00 [] false) = .next t) ∧ readsRx .nop = false ∧ writesTx .nop = false :=
  ⟨⟨_, rfl⟩, rfl, ⟨_, rfl⟩, rfl, ⟨_, rfl⟩, rfl, rfl⟩

theorem witness_CommandsEndWithTheirCodes :
    (∃ s t : State, s.busy = true ∧ exec .varintDec s = .next t ∧ t.err = 0x21) ∧
    (∃ (s : State) (e : Reject), s.busy = true ∧ decode s.cmdl = .error e) :=
  ⟨⟨latched 0x20 [0xFD, 0x00, 0x00] false, _, rfl, rfl, by decide⟩, ⟨latched 0x01 [] false, .strayFlag, by decide⟩⟩

theorem witness_EndOfStreamLiftsEveryHold :
    ∃ s t : State, s.busy = true ∧ exec .varintDec s = .next t ∧ t.busy = true :=
  ⟨latched 0x20 [0xFD] false, _, rfl, rfl, rfl⟩

/-- An ended, empty input with H_SIZE 0, and at both ends of the range that needs bytes. -/
theorem witness_EndedInputEndsEveryDecode :
    ((withRx [] true).rxEof = true ∧ (withRx [] true).rxq = [] ∧ (withRx [] true).hSize = 0) ∧
    (∃ s : State, s.rxEof = true ∧ s.rxq = [] ∧ 0 < s.hSize.toNat ∧ s.hSize.toNat ≤ 33554432 ∧ s.hSize.toNat = 1) ∧
    ∃ s : State, s.rxEof = true ∧ s.rxq = [] ∧ 0 < s.hSize.toNat ∧ s.hSize.toNat ≤ 33554432 ∧
      s.hSize.toNat = 33554432 :=
  ⟨by decide, ⟨{ withRx [] true with hSize := 1 }, by decide⟩, ⟨{ withRx [] true with hSize := 33554432 }, by decide⟩⟩

theorem witness_MoreInputDoesNotChangeACompletion :
    ∃ s t : State, s.busy = true ∧ s.rxEof = false ∧ exec .varintDec s = .next t ∧ t.busy = false :=
  ⟨latched 0x20 [0x05] false, _, rfl, rfl, rfl, rfl⟩

theorem witness_StatusFieldsAreNotOperands :
    ∃ s t : State, s.busy = true ∧ exec .clrerr s = .next t ∧ t.busy = false :=
  ⟨latched 0xE0 [] false, _, rfl, rfl, rfl⟩

theorem witness_EngineIgnoresDaddr : ∃ s t : State, exec .varintDec s = .next t ∧ s ≠ t :=
  ⟨latched 0x20 [0x05] false, _, rfl, by decide⟩

theorem witness_IntegerLayouts : 0 < 2 ∧ 1 < 2 ∧ 0x0000 < 2 ^ (8 * 2) ∧ 0xFFFF < 2 ^ (8 * 2) := by decide

/-- The ends of the four ranges of a varint. -/
theorem witness_VarintForms : (0xFC < 2 ^ 64 ∧ 0xFC < 0xFD) ∧ (0xFD ≤ 0xFD ∧ 0xFFFF ≤ 0xFFFF) ∧
    (0x10000 ≤ 0x10000 ∧ 0xFFFFFFFF ≤ 0xFFFFFFFF) ∧ (0x100000000 ≤ 0x100000000 ∧ 0x100000000 ≤ 2 ^ 64 - 1 ∧
      2 ^ 64 - 1 < 2 ^ 64) := by decide

theorem witness_VarintRoundTrip : 2 ^ 64 - 1 < 2 ^ 64 ∧
    ∀ bs r : List Byte, ∃ u : State, u.rxq = bs ++ r :=
  ⟨by decide, fun bs r => ⟨withRx (bs ++ r) false, rfl⟩⟩

theorem witness_LongerFormsAreRejected : 0xFC < 0xFD ∧ 0xFFFF < 0x10000 ∧ 0xFFFFFFFF < 0x100000000 := by decide

/-- Each outcome of the varint decoder, at the edge of a form (`95_test_vectors.md` part 2.2). -/
theorem witness_VarintDecFollowsTheDecoder :
    varintDecode [0xFE, 0x00, 0x00, 0x01, 0x00] = .ok 0x10000 5 ∧
    varintDecode [0xFE, 0xFF, 0xFF, 0x00, 0x00] = .err .protoNoncanonicalVarint 5 ∧
    (varintDecode (withRx [0xFD, 0x03] true).rxq = .short ∧ (withRx [0xFD, 0x03] true).rxEof = true) ∧
    (varintDecode (withRx [] false).rxq = .short ∧ (withRx [] false).rxEof = false) := by decide

theorem witness_VarstrRoundTrip : ([] : List Byte).length ≤ 33554432 ∧
    (List.replicate 33554432 (0x41 : Byte)).length ≤ 33554432 := by
  rw [List.length_replicate]
  exact ⟨by decide, Nat.le_refl _⟩

/-- The 5-byte and the 9-byte prefix, and a run that stores. -/
theorem witness_ForgedLengthHasBoundedEffect :
    varstrDecode [0xFE, 0x01, 0x00, 0x00, 0x02] = .err .protoVarstringTooLong 5 ∧
    varstrDecode [0xFF, 0x00, 0x00, 0x00, 0x00, 0x01, 0x00, 0x00, 0x00] = .err .protoVarstringTooLong 9 ∧
    ∃ t, exec .varstrDec (withRx [0x01, 0x41] false) = .next t ∧ t.dbuf = [(0, 0x41)] :=
  ⟨by decide, by decide, _, rfl, by decide⟩

theorem witness_LengthIsComparedBeforeNarrowing : (33554432 < 33554433 ∧ 33554433 < 2 ^ 64) ∧
    (33554432 < 2 ^ 32 + 5 ∧ 2 ^ 32 + 5 < 2 ^ 64) := by decide

/-- DLEN at both ends of its range: the hypothesis of every command that reads a body. -/
theorem witness_dlen : (State.reset.dlen.toNat ≤ 33554432) ∧
    ({ State.reset with dlen := 33554432 } : State).dlen.toNat ≤ 33554432 := by decide

theorem witness_VarstrEncAppendsPrefixAndBody : ∃ s : State, s.dlen.toNat ≤ 33554432 :=
  ⟨_, witness_dlen.2⟩

/-- Each outcome of the varstring decoder; the two short ones, inside the body of the largest accepted length and inside
the prefix. -/
theorem witness_VarstrDecFollowsTheDecoder :
    varstrDecode [0x00] = .ok [] 1 ∧ varstrDecode [0x01, 0x41, 0xFF] = .ok [0x41] 2 ∧
    varstrDecode [0xFD, 0x03, 0x00] = .err .protoNoncanonicalVarint 3 ∧
    varstrDecode [0xFE, 0x01, 0x00, 0x00, 0x02] = .err .protoVarstringTooLong 5 ∧
    (varstrDecode (withRx [0xFE, 0x00, 0x00, 0x00, 0x02, 0xAA] true).rxq = .short ∧
      (withRx [0xFE, 0x00, 0x00, 0x00, 0x02, 0xAA] true).rxEof = true ∧
      varintDecode [0xFE, 0x00, 0x00, 0x00, 0x02, 0xAA] = .ok 33554432 5) ∧
    (varstrDecode (withRx [0xFD] true).rxq = .short ∧ varintDecode [0xFD] = .short) ∧
    (varstrDecode (withRx [0xFD] false).rxq = .short ∧ (withRx [0xFD] false).rxEof = false) := by decide

/-- An input state with the two version registers set. -/
def versions (rx : List Byte) (eof : Bool) (pver tsver : Word) : State :=
  { withRx rx eof with pver := pver, tsver := tsver }

/-- PVER at the threshold carries a timestamp, just below it does not; the record is there whole, or one byte is
missing. -/
theorem witness_NetaddrDecReadsTheRecord :
    (∃ s : State, (true = true ↔ true = true ∧ s.tsver.toNat ≤ s.pver.toNat) ∧ 4 + 26 ≤ s.rxq.length) ∧
    (∃ s : State, (false = true ↔ true = true ∧ s.tsver.toNat ≤ s.pver.toNat) ∧ 0 + 26 ≤ s.rxq.length) ∧
    (∃ s : State, (true = true ↔ true = true ∧ s.tsver.toNat ≤ s.pver.toNat) ∧ s.rxq.length < 4 + 26 ∧
      s.rxEof = true) ∧
    (∃ s : State, (false = true ↔ false = true ∧ s.tsver.toNat ≤ s.pver.toNat) ∧ s.rxq.length < 0 + 26 ∧
      s.rxEof = false) :=
  ⟨⟨versions (List.replicate 30 0) false 31402 31402, by decide⟩,
    ⟨versions (List.replicate 26 0) false 31401 31402, by decide⟩,
    ⟨versions (List.replicate 29 0) true 31402 31402, by decide⟩,
    ⟨versions (List.replicate 25 0) false 31402 31402, by decide⟩⟩

theorem witness_PaddingFillsWholeBlocks : ([] : List Byte).length = 0 ∧ (List.replicate 55 (0 : Byte)).length = 55 ∧
    (List.replicate 56 (0 : Byte)).length = 56 ∧ (List.replicate 32 (0 : Byte)).length = 32 := by decide

theorem witness_CksumGenWritesCk : ∃ s : State, s.dlen.toNat ≤ 33554432 :=
  ⟨_, witness_dlen.2⟩

/-- A checksum that matches and one that does not. -/
theorem witness_CksumVfyComparesFourBytes :
    (∃ s : State, s.dlen.toNat ≤ 33554432 ∧ checksum (s.memRead 0 s.dlen.toNat) = s.hCksum) ∧
    (∃ s : State, s.dlen.toNat ≤ 33554432 ∧ checksum (s.memRead 0 s.dlen.toNat) ≠ s.hCksum) :=
  ⟨⟨{ State.reset with hCksum := #v[0x5D, 0xF6, 0xE0, 0xE2] }, by decide +kernel⟩, ⟨State.reset, by decide +kernel⟩⟩

theorem witness_HeaderFieldsAreTheBytes :
    (exampleHeader exampleMagic.toList Token.ping.text 8 [0xAA, 0xBB, 0xCC, 0xDD]).length = 24 := by decide

/-- CMD_LEN on both sides of its bound, DLEN at its own. -/
theorem witness_HdrBuildFillsTheHeader :
    (∃ s : State, s.cmdLen.toNat ≤ 12 ∧ s.dlen.toNat ≤ 33554432 ∧ s.cmdLen = 12 ∧ s.dlen = 33554432) ∧
    (∃ s : State, 12 < s.cmdLen.toNat ∧ s.cmdLen = 13) :=
  ⟨⟨{ State.reset with cmdLen := 12, dlen := 33554432 }, by decide⟩, ⟨{ State.reset with cmdLen := 13 }, by decide⟩⟩

/-- A block with the example magic and an input. -/
def parsing (rx : List Byte) (eof : Bool) : State :=
  { withRx rx eof with magic := exampleMagic }

/-- A state for each branch of the parser: too short in its three ways, the size bound on both sides, and a failed
validation whose payload is there, or not, with the stream ended and not. -/
theorem witness_HdrDecFollowsTheContract :
    (∃ s : State, s.rxq.length < 24 ∧ s.rxEof = false) ∧
    (∃ s : State, s.rxq.length < 24 ∧ s.rxEof = true ∧ s.rxq.length = 0) ∧
    (∃ s : State, s.rxq.length < 24 ∧ s.rxEof = true ∧ s.rxq.length = 23) ∧
    (∃ s : State, 24 ≤ s.rxq.length ∧ 33554432 < le (slice s.rxq 16 20) ∧ le (slice s.rxq 16 20) = 33554433) ∧
    (∃ s : State, 24 ≤ s.rxq.length ∧ le (slice s.rxq 16 20) ≤ 33554432 ∧ failedValidation s.magic s.rxq = none ∧
      le (slice s.rxq 16 20) = 33554432) ∧
    (∃ s : State, 24 ≤ s.rxq.length ∧ le (slice s.rxq 16 20) ≤ 33554432 ∧
      failedValidation s.magic s.rxq = some .frameWrongNetwork ∧ 24 + le (slice s.rxq 16 20) ≤ s.rxq.length) ∧
    (∃ s : State, 24 ≤ s.rxq.length ∧ le (slice s.rxq 16 20) ≤ 33554432 ∧
      failedValidation s.magic s.rxq = some .frameInvalidCommand ∧ s.rxq.length < 24 + le (slice s.rxq 16 20) ∧
      s.rxEof = true) ∧
    (∃ s : State, 24 ≤ s.rxq.length ∧ le (slice s.rxq 16 20) ≤ 33554432 ∧
      failedValidation s.magic s.rxq = some .frameInvalidCommand ∧ s.rxq.length < 24 + le (slice s.rxq 16 20) ∧
      s.rxEof = false) :=
  ⟨⟨parsing [] false, by decide⟩, ⟨parsing [] true, by decide⟩, ⟨parsing (List.replicate 23 0) true, by decide⟩,
    ⟨parsing (exampleHeader exampleMagic.toList Token.block.text 33554433 [1, 2, 3, 4]) false, by decide⟩,
    ⟨parsing (exampleHeader exampleMagic.toList Token.block.text 33554432 [1, 2, 3, 4]) false, by decide⟩,
    ⟨parsing (exampleHeader [1, 2, 3, 4] Token.inv.text 3 [1, 2, 3, 4] ++ [1, 2, 3]) false, by decide⟩,
    ⟨parsing (exampleHeader exampleMagic.toList [0x80] 3 [1, 2, 3, 4] ++ [1, 2]) true, by decide⟩,
    ⟨parsing (exampleHeader exampleMagic.toList [0x80] 3 [1, 2, 3, 4] ++ [1, 2]) false, by decide⟩⟩

theorem witness_HdrDecIsBounded : (∃ s t : State, exec .hdrDec s = .next t ∧ t.err = 0x32) ∧
    ∃ s : State, 24 + 33554432 ≤ s.rxq.length :=
  ⟨⟨withRx [] true, _, rfl, by decide⟩, withRx (List.replicate (24 + 33554432) 0) false, by
    rw [show (withRx (List.replicate (24 + 33554432) 0) false).rxq = List.replicate (24 + 33554432) 0 from rfl,
      List.length_replicate]⟩

theorem witness_FailedHeaderLeavesTheStreamAligned :
    ∃ (s t : State) (h p r : List Byte), s.rxq = h ++ p ++ r ∧ h.length = 24 ∧ le (slice h 16 20) = p.length ∧
      p.length ≤ 33554432 ∧ exec .hdrDec s = .next t ∧ (t.err = 0x11 ∨ t.err = 0x13) :=
  ⟨withRx (exampleHeader [1, 2, 3, 4] Token.inv.text 3 [1, 2, 3, 4] ++ [1, 2, 3] ++ [0xF9]) false, _,
    exampleHeader [1, 2, 3, 4] Token.inv.text 3 [1, 2, 3, 4], [1, 2, 3], [0xF9], rfl, by decide, by decide, by decide,
    rfl, by decide⟩

theorem witness_HeaderRoundTrip :
    ∃ s : State, s.hMagic = s.magic ∧ s.hSize.toNat ≤ 33554432 ∧ validText (stripZeros s.hCmd.toList) = true ∧
      s.hCmd = Token.verack.field ∧ ∀ bs r : List Byte, ∃ u : State, u.magic = s.magic ∧ u.rxq = bs ++ r :=
  ⟨{ State.reset with magic := exampleMagic, hMagic := exampleMagic, hSize := 33554432, hCmd := Token.verack.field },
    by decide, by decide, by decide, rfl,
    fun bs r => ⟨{ withRx (bs ++ r) false with magic := exampleMagic }, rfl, rfl⟩⟩

/-- H_SIZE on both sides of its bound, with the body there and not. -/
theorem witness_BodyRdMovesExactlyTheBody :
    (∃ s : State, 33554432 < s.hSize.toNat ∧ s.hSize = 33554433) ∧
    (∃ s : State, s.hSize.toNat ≤ 33554432 ∧ s.hSize.toNat ≤ s.rxq.length ∧ s.hSize = 8) ∧
    (∃ s : State, s.hSize.toNat ≤ 33554432 ∧ s.hSize.toNat ≤ s.rxq.length ∧ s.hSize = 0 ∧ s.rxEof = true) ∧
    (∃ s : State, s.hSize.toNat ≤ 33554432 ∧ s.rxq.length < s.hSize.toNat ∧ s.rxEof = true) ∧
    (∃ s : State, s.hSize.toNat ≤ 33554432 ∧ s.rxq.length < s.hSize.toNat ∧ s.rxEof = false ∧ s.hSize = 33554432) :=
  ⟨⟨{ State.reset with hSize := 33554433 }, by decide⟩, ⟨{ withRx (List.replicate 8 0) false with hSize := 8 }, by decide⟩,
    ⟨withRx [] true, by decide⟩, ⟨{ withRx [1] true with hSize := 2 }, by decide⟩,
    ⟨{ withRx [1] false with hSize := 33554432 }, by decide⟩⟩

theorem witness_BodyWrAppendsTheBody : ∃ s : State, s.dlen.toNat ≤ 33554432 :=
  ⟨_, witness_dlen.2⟩

theorem witness_BodyRoundTrip : ∃ s : State, s.dlen.toNat ≤ 33554432 ∧
    ∀ bs r : List Byte, ∃ u : State, u.hSize.toNat = s.dlen.toNat ∧ u.rxq = bs ++ r :=
  ⟨withDbuf [1, 2, 3], by decide, fun bs r => ⟨{ withRx (bs ++ r) false with hSize := 3 }, rfl, rfl⟩⟩

/-- An idle block, a running one, and a queue with bytes to pop and with none: the hypotheses of IssueLatchesTheWord,
WritesWhileBusyAreIgnored, DataWindowMovesOn and StreamRegisters. -/
theorem witness_host : State.reset.busy = false ∧ (latched 0x20 [] false).busy = true ∧
    ({ State.reset with txq := [0x41, 0x42] } : State).txq = 0x41 :: [0x42] ∧ State.reset.txq = [] ∧
    BusReg.magic ≠ .rxdata ∧ BusReg.magic ≠ .rxctl ∧ (0x1FFFFFF : BitVec 25).toNat = 33554431 := by decide

theorem witness_IssueLatchesTheWord : ∃ s : State, s.busy = false := ⟨_, witness_host.1⟩

theorem witness_WritesWhileBusyAreIgnored : ∃ s : State, s.busy = true := ⟨_, witness_host.2.1⟩

theorem witness_DataWindowMovesOn : ∃ s : State, s.busy = false ∧ s.daddr = 0x1FFFFFF :=
  ⟨{ State.reset with daddr := 0x1FFFFFF }, rfl, rfl⟩

theorem witness_StreamRegisters : (∃ (s : State) (b : Byte) (q : List Byte), s.txq = b :: q) ∧ ∃ s : State, s.txq = [] :=
  ⟨⟨_, _, _, witness_host.2.2.1⟩, _, witness_host.2.2.2.1⟩

/-- DLEN's two cases, an offset of the map and the first reserved one, and a pair of registers. -/
theorem witness_RegisterMapReadsBackWrites : (0x5C % 4 = 0 ∧ 0x74 ≤ 0x74) ∧ State.reset.busy = false ∧
    BusReg.dlen ∈ busStorage ∧ BusReg.magic ∈ busStorage ∧
    33554432 < ((33554433 : Word) &&& busMask .dlen).toNat ∧ ¬ 33554432 < ((33554432 : Word) &&& busMask .dlen).toNat ∧
    BusReg.valHi ≠ .valLo ∧ ¬ (BusReg.valLo = .daddr ∧ BusReg.valHi = .ddata) ∧ BusReg.rxdata ≠ .ddata ∧
    BusReg.rxdata ≠ .txdata ∧ BusReg.cmd ≠ .rxdata := by decide

theorem witness_NamedRegistersReadBack : State.reset.busy = false ∧ (RegValue.dlen 33554432).name ≠ .status ∧
    (RegValue.dlen 33554432).name ≠ .ck ∧ (33554432 : BitVec 26).toNat ≤ 33554432 ∧
    33554432 < (33554433 : BitVec 26).toNat ∧ (RegValue.ck #v[1, 2, 3, 4]).name = .ck ∧
    RegName.pver ≠ (RegValue.dlen 33554432).name := by decide

theorem witness_BusAccessOutsideSpecIsRefused : (2 ≠ 4 ∨ 0x08 % 4 ≠ 0) ∧ (4 ≠ 4 ∨ 0x0A % 4 ≠ 0) ∧ 0x08 % 4 = 0 := by
  decide

theorem witness_MessageSentIsMessageReceived :
    ∃ s : State, s.busy = false ∧ s.cmdLen.toNat ≤ 12 ∧ s.dlen.toNat ≤ 33554432 ∧
      validText (stripZeros (s.hCmd.toList.take s.cmdLen.toNat)) = true ∧ s.dlen = 8 ∧
      ∀ bs r : List Byte, ∃ u : State, u.busy = false ∧ u.magic = s.magic ∧ u.rxq = bs ++ r :=
  ⟨{ withDbuf [1, 2, 3, 4, 5, 6, 7, 8] with magic := exampleMagic, hCmd := Token.ping.field, cmdLen := 4 },
    rfl, by decide, by decide, by decide, rfl,
    fun bs r => ⟨{ withRx (bs ++ r) false with magic := exampleMagic }, rfl, rfl, rfl⟩⟩

end Sys2Proof.Tests
end

/-! Integer layouts (`00_scope.md` rule R12): what byte stands at each place, and the inverse laws under the bound in
bits. -/

namespace Sys2Proof.Machine

open Sys2Proof

/-- Byte `i` of `LE_n(v)` is bits `8i+7:8i` of `v`. -/
theorem leBytes_getElem? (n v i : Nat) (h : i < n) :
    (leBytes n v)[i]? = some (BitVec.ofNat 8 (v / 2 ^ (8 * i))) := by
  induction n generalizing v i with
  | zero => omega
  | succ n ih =>
    cases i with
    | zero => simp
    | succ i =>
      have hq : v / 256 / 2 ^ (8 * i) = v / 2 ^ (8 * (i + 1)) := by
        rw [Nat.div_div_eq_div_mul, Nat.mul_add_one, Nat.pow_add, Nat.mul_comm]
      rw [leBytes_succ, List.getElem?_cons_succ, ih _ _ (Nat.lt_of_succ_lt_succ h), hq]

/-- Byte `i` of `BE_n(v)` is byte `n - 1 - i` of `LE_n(v)`. -/
theorem beBytes_getElem? (n v i : Nat) (h : i < n) :
    (beBytes n v)[i]? = some (BitVec.ofNat 8 (v / 2 ^ (8 * (n - 1 - i)))) := by
  have hi : i < (leBytes n v).length := by rwa [leBytes_length]
  rw [beBytes, List.getElem?_reverse hi, leBytes_length, leBytes_getElem? n v _ (by omega)]

/-- Settles O19: the bytes of the two layouts by place, and the inverse laws of `Laws/Bytes`. -/
theorem integerLayouts : Obligations.IntegerLayouts := by
  unfold Obligations.IntegerLayouts
  refine ⟨fun n v => ⟨leBytes_length n v, beBytes_length n v⟩, leBytes_getElem?, beBytes_getElem?, ?_,
    fun s => ⟨leBytes_le s, beBytes_be s⟩, rfl, rfl⟩
  intro n v hv
  have hb : v < 256 ^ n := by rwa [Nat.pow_mul] at hv
  exact ⟨le_leBytes n v hb, be_beBytes n v hb⟩

end Sys2Proof.Machine

/-! What commands answer, in the cases that the laws of the model leave to be said: the commands that read
`DBUF[0..DLEN)`, too few bytes in RX, and HDR.DEC branch by branch. -/

namespace Sys2Proof.Machine

open Sys2Proof Host

section
variable (s t : State)

theorem execVarstrEnc_cases (h : execVarstrEnc s = .next t) : s.dlen.toNat ≤ Config.dbufCap ∧
    t = (s.txPut (varintEncode s.dlen.toNat ++ s.memRead 0 s.dlen.toNat)).complete .ok :=
  (withBody_cases _ _ _ h).imp_right fun ht => (Outcome.next.inj ht).symm

theorem execBodyWr_cases (h : execBodyWr s = .next t) : s.dlen.toNat ≤ Config.dbufCap ∧
    t = (s.txPut (s.memRead 0 s.dlen.toNat)).complete .ok :=
  (withBody_cases _ _ _ h).imp_right fun ht => (Outcome.next.inj ht).symm

theorem execCksumGen_cases (h : execCksumGen s = .next t) : s.dlen.toNat ≤ Config.dbufCap ∧
    t = (s.setCk (checksum (s.memRead 0 s.dlen.toNat))).complete .ok :=
  (withBody_cases _ _ _ h).imp_right fun ht => (Outcome.next.inj ht).symm

theorem execCksumVfy_cases (h : execCksumVfy s = .next t) : s.dlen.toNat ≤ Config.dbufCap ∧
    t = (s.setCk (checksum (s.memRead 0 s.dlen.toNat))).complete
      (if checksum (s.memRead 0 s.dlen.toNat) = s.hCksum then .ok else .frameChecksumMismatch) :=
  (withBody_cases _ _ _ h).imp_right fun ht => (Outcome.next.inj ht).symm

end

/-! ### Reading RX with too few bytes (`20_memory.md` rule R53) -/

/-- An end of stream inside the item ends the command (`20_memory.md` rule R53). -/
theorem completeRead_ended {α : Type} (onOk : α → State → State) (onShort : State → State) (s : State)
    (he : s.rxEof = true) :
    completeRead .short onOk onShort s = .next ((onShort s).rxClear.complete .ioShortRead) := if_pos he

/-- A command whose item is incomplete waits while end of stream is not declared (`20_memory.md` rule R53). -/
theorem completeRead_waits {α : Type} (onOk : α → State → State) (onShort : State → State) (s : State)
    (he : s.rxEof = false) : completeRead .short onOk onShort s = .next s := if_neg (by simp [he])

/-! ### HDR.DEC by its branches (`44_header.md` rule R181) -/

section
variable (s : State)

theorem execHdrDec_waits (hl : s.rxq.length < Config.hdrLen) (he : s.rxEof = false) : execHdrDec s = .next s := by
  simp [execHdrDec, hl, he]

theorem execHdrDec_eof (hq : s.rxq.length = 0) (he : s.rxEof = true) :
    execHdrDec s = .next ((s.setDrainshort false).complete .ioEof) := by
  simp [execHdrDec, hq, he]

theorem execHdrDec_short (hl : s.rxq.length < Config.hdrLen) (hq : s.rxq.length ≠ 0) (he : s.rxEof = true) :
    execHdrDec s = .next ((s.rxClear.setDrainshort false).complete .ioShortRead) := by
  simp [execHdrDec, hl, hq, he]

variable (hl : ¬ s.rxq.length < Config.hdrLen)
include hl

theorem execHdrDec_tooLarge (hz : Config.maxPayload < (headerOf s.rxq).size.toNat) :
    execHdrDec s = .next
      ((((s.rxTake Config.hdrLen).latch (headerOf s.rxq)).setDrainshort false).complete .framePayloadTooLarge) := by
  rw [execHdrDec, if_neg hl, hdrDecBody, if_pos hz, finish_eq]

variable (hz : ¬ Config.maxPayload < (headerOf s.rxq).size.toNat)
include hz

theorem execHdrDec_accepts (hv : headerError s.magic (headerOf s.rxq) = none) :
    execHdrDec s = .next
      ((((s.rxTake Config.hdrLen).latch (headerOf s.rxq)).setDrainshort false).complete .ok) := by
  rw [execHdrDec, if_neg hl, hdrDecBody, if_neg hz, hv, finish_eq]

variable (e : ErrCode) (hv : headerError s.magic (headerOf s.rxq) = some e)
include hv

theorem execHdrDec_drains (hd : Config.hdrLen + (headerOf s.rxq).size.toNat ≤ s.rxq.length) :
    execHdrDec s = .next ((((s.rxTake (Config.hdrLen + (headerOf s.rxq).size.toNat)).latch
      (headerOf s.rxq)).setDrainshort false).complete e) := by
  rw [execHdrDec, if_neg hl, hdrDecBody, if_neg hz, hv]
  exact if_pos hd

variable (hd : ¬ Config.hdrLen + (headerOf s.rxq).size.toNat ≤ s.rxq.length)
include hd

theorem execHdrDec_drainShort (he : s.rxEof = true) :
    execHdrDec s = .next (((s.rxClear.latch (headerOf s.rxq)).setDrainshort true).complete e) := by
  rw [execHdrDec, if_neg hl, hdrDecBody, if_neg hz, hv]
  exact (if_neg hd).trans (if_pos he)

theorem execHdrDec_drainWaits (he : s.rxEof = false) : execHdrDec s = .next s := by
  rw [execHdrDec, if_neg hl, hdrDecBody, if_neg hz, hv]
  exact (if_neg hd).trans (if_neg (by simp [he]))

end

end Sys2Proof.Machine

/-! What a host action does, said once (`10_state.md` rule R46, `20_memory.md` rule R62): the register map has thirty
entries, and nine kinds of effect. -/

namespace Sys2Proof.Machine

open Sys2Proof Host

/-- The effect of one host action on the state `s`. -/
inductive HostEffect (a : HostAction) (s : State) : State → Prop
  /-- A write of a read-only or reserved offset, or of RXCTL with bit 0 clear. -/
  | ignored : HostEffect a s s
  | writeReg (v : RegValue) : HostEffect a s (s.writeReg v)
  | readReg (d : HostData) : HostEffect a s { s with hostData := d }
  | dbufStore (b : Byte) : HostEffect a s (s.dbufStore b)
  | rxPush (b : Byte) : HostEffect a s (s.rxPush b)
  | declareEof : HostEffect a s s.declareEof
  | issue (w : Word) : HostEffect a s (s.issue w)
  | busRead (r : BusReg) : HostEffect a s (s.busRead r)
  | reset (ha : a = .reset) : HostEffect a s s.resetBlock

/-- A bus write is a write by name, a store through DDATA, a push, an end of stream, an Issue, or ignored. -/
theorem busStore_effect (a : HostAction) (s : State) (r : BusReg) (w : Word) : HostEffect a s (s.busStore r w) := by
  cases r
  case cmd => exact .issue w
  case status | ck | txdata | reserved => exact .ignored
  case ddata => exact .dbufStore _
  case rxdata => exact .rxPush _
  case rxctl =>
    simp only [State.busStore]
    split
    · exact .declareEof
    · exact .ignored
  all_goals exact .writeReg _

/-- What a host action can answer. -/
theorem hostAct_effect (a : HostAction) (s t : State) (h : hostAct a s = .next t) : HostEffect a s t := by
  cases a with
  | busWrite width offset v =>
    simp only [hostAct] at h
    split at h
    · cases h; exact busStore_effect _ s _ v
    · cases h
  | busRead width offset =>
    simp only [hostAct] at h
    split at h
    · cases h; exact .busRead _
    · cases h
  | writeReg v => cases h; exact .writeReg v
  | readReg r => cases h; exact .readReg _
  | dbufWrite b => cases h; exact .dbufStore b
  | dbufRead => cases h; exact .busRead .ddata
  | rxPush b => cases h; exact .rxPush b
  | rxEof => cases h; exact .declareEof
  | txPop => cases h; exact .busRead .txdata
  | issue w => cases h; exact .issue w
  | reset => cases h; exact .reset rfl

/-- A property that the state has and the write keeps holds after the write, idle or not. -/
theorem whenIdle_keeps {P : State → Prop} {s : State} (f : State → State) (h : P s) (hf : P (f s)) :
    P (s.whenIdle f) := by
  unfold State.whenIdle
  split
  · exact h
  · exact hf

/-- A DDATA read moves DADDR on or uses up a draw (`10_state.md` rule R36). -/
theorem dbufReadEffect_cases (s : State) : s.dbufReadEffect = s.useDraw ∨ s.dbufReadEffect = s.daddrNext := by
  unfold State.dbufReadEffect
  split
  · exact .inl rfl
  · exact .inr rfl

/-- The side effect of a bus read (`20_memory.md` rule R63). -/
theorem busReadEffect_cases (s : State) (r : BusReg) :
    s.busReadEffect r = s ∨ s.busReadEffect r = s.useDraw ∨ s.busReadEffect r = s.daddrNext ∨
      s.busReadEffect r = s.txDrop := by
  cases r
  case ddata => exact .inr ((dbufReadEffect_cases s).imp id .inl)
  case rxdata => exact .inr (.inl rfl)
  case txdata => exact .inr (.inr (.inr rfl))
  all_goals exact .inl rfl

end Sys2Proof.Machine

/-! The invariant (`Safety.lean`): one rule per operation on the state, then every command, every host action, every
step. -/

namespace Sys2Proof.Machine

open Sys2Proof Host

/-- Settles O7: DBUF lists nothing, ERR is OK, and the reset state's draw precedes the next one. -/
theorem invariantHoldsAtReset : Obligations.InvariantHoldsAtReset := by
  unfold Obligations.InvariantHoldsAtReset
  exact ⟨by decide, State.reset_dbuf_wf, ⟨.ok, rfl, rfl⟩, by decide, by decide, by decide, by decide⟩

/-! ### The engine's operations keep the invariant -/

section
variable {s : State} (h : s.Inv)
include h

theorem State.Inv.rxTake (n : Nat) : (s.rxTake n).Inv :=
  { h with
    short_read_ended := fun he => (h.short_read_ended he).imp_right fun hq => by simp [hq]
    drainshort_ended := fun hd => (h.drainshort_ended hd).imp_right fun hq => by simp [hq] }

theorem State.Inv.rxClear : s.rxClear.Inv :=
  { h with
    short_read_ended := fun he => (h.short_read_ended he).imp_right fun _ => rfl
    drainshort_ended := fun hd => (h.drainshort_ended hd).imp_right fun _ => rfl }

theorem State.Inv.txPut (bs : List Byte) : (s.txPut bs).Inv := { h with }

theorem State.Inv.setCk (c : Bytes 4) : (s.setCk c).Inv := { h with }

theorem State.Inv.setVal (v : BitVec 64) : { s with val := v }.Inv := { h with }

theorem State.Inv.setHeader (x : Header) : (s.setHeader x).Inv := { h with }

theorem State.Inv.latch (x : Header) : (s.latch x).Inv := { h with }

theorem State.Inv.setNetAddr (ts : Bool) (a : NetAddr) : (s.setNetAddr ts a).Inv := { h with }

theorem State.Inv.clearDrainshort : (s.setDrainshort false).Inv := { h with drainshort_ended := nofun }

theorem State.Inv.setDrainshort_of_ended (d : Bool) (he : s.rxEof = true) (hq : s.rxq = []) :
    (s.setDrainshort d).Inv :=
  { h with drainshort_ended := fun _ => ⟨he, hq⟩ }

theorem State.Inv.bodyStored (b : List Byte) (hb : b.length ≤ Config.dbufCap) : (s.bodyStored b).Inv :=
  { h with
    dlen_le := by
      rw [State.bodyStored_dlen, BitVec.toNat_ofNat]
      exact (Nat.mod_le _ _).trans hb
    dbuf_wf := s.bodyStored_wf b h.dbuf_wf hb }

theorem State.Inv.bodyLost (n : Nat) (hn : n ≤ Config.dbufCap) : (s.bodyLost n).Inv :=
  { h with
    dlen_le := Nat.zero_le _
    dbuf_wf := s.bodyLost_wf n h.dbuf_wf hn
    epoch_lt := Nat.lt_succ_of_lt h.epoch_lt }

/-- A completion keeps the invariant; a short read or an end of stream needs the ended, emptied input it reports
(`60_exceptions.md` rule R220). -/
theorem State.Inv.complete (c : ErrCode) (hc : c.producible = true)
    (hs : c = .ioShortRead ∨ c = .ioEof → s.rxEof = true ∧ s.rxq = []) : (s.complete c).Inv :=
  complete_inv c s hc h.dlen_le h.dbuf_wf hs h.drainshort_ended h.epoch_lt

theorem State.Inv.completeOk : (s.complete .ok).Inv := h.complete .ok rfl nofun

theorem State.Inv.completeShort (he : s.rxEof = true) : (s.rxClear.complete .ioShortRead).Inv :=
  h.rxClear.complete .ioShortRead rfl fun _ => ⟨he, rfl⟩

end

/-! ### Every command keeps the invariant -/

/-- An accepted varstring fits DBUF (`41_varstring.md` rule R116). -/
theorem varstrDecode_ok_length (q b : List Byte) (n : Nat) (h : varstrDecode q = .ok b n) :
    b.length ≤ Config.maxPayload := by
  rcases varstrDecode_cases q with ⟨-, hd⟩ | ⟨_, _, -, hd⟩ | ⟨_, _, -, -, hd⟩ | ⟨_, _, -, -, -, hd⟩ |
    ⟨l, _, -, hl, -, hd⟩ <;> rw [hd] at h <;> cases h
  exact (List.length_take_le _ _).trans hl

/-- An end of stream inside a varstring leaves end of stream declared. -/
theorem varstrShort_rxEof (s : State) : (varstrShort s).rxEof = s.rxEof := by
  obtain ⟨l, n, -, -, hv⟩ | ⟨-, hv⟩ := varstrShort_cases s <;> rw [hv]
  rfl

theorem State.Inv.varstrShort {s : State} (h : s.Inv) : (varstrShort s).Inv := by
  obtain ⟨l, n, -, hl, hv⟩ | ⟨-, hv⟩ := varstrShort_cases s <;> rw [hv]
  · exact h.bodyLost l hl
  · exact h

section
variable {s t : State} (hi : s.Inv)
include hi

theorem execVarintDec_inv (h : execVarintDec s = .next t) : t.Inv := by
  obtain ⟨v, n, -, rfl⟩ | ⟨n, -, rfl⟩ | ⟨-, he, rfl⟩ | ⟨-, -, rfl⟩ := execVarintDec_cases s t h
  · exact ((hi.rxTake n).setVal _).completeOk
  · exact (hi.rxTake n).complete _ rfl nofun
  · exact hi.completeShort he
  · exact hi

theorem execVarstrDec_inv (h : execVarstrDec s = .next t) : t.Inv := by
  obtain ⟨b, n, hd, rfl⟩ | ⟨c, n, -, hc, rfl⟩ | ⟨-, he, rfl⟩ | ⟨-, -, rfl⟩ := execVarstrDec_cases s t h
  · exact ((hi.rxTake n).bodyStored b (varstrDecode_ok_length _ _ _ hd)).completeOk
  · obtain rfl | rfl := hc
    · exact (hi.rxTake n).complete _ rfl nofun
    · exact (hi.rxTake n).complete _ rfl nofun
  · exact hi.varstrShort.completeShort ((varstrShort_rxEof s).trans he)
  · exact hi

theorem execNetaddrDec_inv (ts : Bool) (h : execNetaddrDec ts s = .next t) : t.Inv := by
  obtain ⟨a, n, -, rfl⟩ | ⟨-, he, rfl⟩ | ⟨-, -, rfl⟩ := execNetaddrDec_cases ts s t h
  · exact ((hi.rxTake n).setNetAddr _ a).completeOk
  · exact hi.completeShort he
  · exact hi

theorem execBodyRd_inv (h : execBodyRd s = .next t) : t.Inv := by
  obtain ⟨-, rfl⟩ | ⟨hz, -, rfl⟩ | ⟨hz, -, he, rfl⟩ | ⟨-, -, -, rfl⟩ := execBodyRd_cases s t h
  · exact hi.complete _ rfl nofun
  · exact ((hi.rxTake _).bodyStored _ ((List.length_take_le _ _).trans hz)).completeOk
  · exact (hi.bodyLost _ hz).completeShort he
  · exact hi

theorem execHdrBuild_inv (h : execHdrBuild s = .next t) : t.Inv := by
  obtain ⟨-, rfl⟩ | ⟨-, -, rfl⟩ := execHdrBuild_cases s t h
  · exact hi.complete _ rfl nofun
  · exact (hi.setHeader _).completeOk

theorem execCksumVfy_inv (h : execCksumVfy s = .next t) : t.Inv := by
  obtain ⟨-, rfl⟩ := execCksumVfy_cases s t h
  split
  · exact (hi.setCk _).completeOk
  · exact (hi.setCk _).complete _ rfl nofun

/-- The two failed validations complete with a code that no end of stream causes (`44_header.md` rule R181). -/
theorem State.Inv.completeInvalid (magic : Bytes 4) (x : Header) (e : ErrCode) (he : headerError magic x = some e) :
    (s.complete e).Inv := by
  obtain rfl | rfl := headerError_some _ _ _ he
  · exact hi.complete _ rfl nofun
  · exact hi.complete _ rfl nofun

theorem execHdrDec_inv (h : execHdrDec s = .next t) : t.Inv := by
  obtain ⟨-, -, rfl⟩ | ⟨hq, he, rfl⟩ | ⟨-, -, he, rfl⟩ | ⟨-, -, rfl⟩ | ⟨-, -, -, rfl⟩ |
    ⟨e, -, -, hf, ⟨-, rfl⟩ | ⟨-, he, rfl⟩ | ⟨-, -, rfl⟩⟩ := execHdrDec_cases s t h
  · exact hi
  · exact hi.clearDrainshort.complete _ rfl fun _ => ⟨he, List.eq_nil_of_length_eq_zero hq⟩
  · exact hi.rxClear.clearDrainshort.complete _ rfl fun _ => ⟨he, rfl⟩
  · exact ((hi.rxTake _).latch _).clearDrainshort.complete _ rfl nofun
  · exact ((hi.rxTake _).latch _).clearDrainshort.completeOk
  · exact ((hi.rxTake _).latch _).clearDrainshort.completeInvalid _ _ e hf
  · exact ((hi.rxClear.latch _).setDrainshort_of_ended true he rfl).completeInvalid _ _ e hf
  · exact hi

theorem exec_inv (i : Instr) (h : exec i s = .next t) : t.Inv := by
  cases i with
  | nop => cases h; exact hi.completeOk
  | varintEnc => cases h; exact (hi.txPut _).completeOk
  | varintDec => exact execVarintDec_inv hi h
  | varstrEnc => obtain ⟨-, rfl⟩ := execVarstrEnc_cases s t h; exact (hi.txPut _).completeOk
  | varstrDec => exact execVarstrDec_inv hi h
  | netaddrEnc ts => cases h; exact (hi.txPut _).completeOk
  | netaddrDec ts => exact execNetaddrDec_inv hi ts h
  | cksumGen => obtain ⟨-, rfl⟩ := execCksumGen_cases s t h; exact (hi.setCk _).completeOk
  | cksumVfy => exact execCksumVfy_inv hi h
  | hdrBuild => exact execHdrBuild_inv hi h
  | hdrEnc => cases h; exact (hi.txPut _).completeOk
  | hdrDec => exact execHdrDec_inv hi h
  | bodyRd => exact execBodyRd_inv hi h
  | bodyWr => obtain ⟨-, rfl⟩ := execBodyWr_cases s t h; exact (hi.txPut _).completeOk
  | clrerr =>
    -- With ESTICKY cleared the invariant may fail until the completion writes ERR.
    cases h
    exact complete_inv .ok s.clearSticky rfl hi.dlen_le hi.dbuf_wf nofun hi.drainshort_ended hi.epoch_lt

/-- The engine's turn keeps the invariant, an illegal word among them (`60_exceptions.md` rule R212). -/
theorem engineAct_inv (h : engineAct s = .next t) : t.Inv := by
  obtain ⟨-, ha⟩ | ⟨-, i, -, ha⟩ | ⟨-, -, ha⟩ := engineAct_cases s <;> rw [ha] at h
  · cases h; exact hi
  · exact exec_inv hi i h
  · cases h; exact hi.complete _ rfl nofun

/-! ### Every host action keeps the invariant -/

theorem State.Inv.withHostData (d : HostData) : { s with hostData := d }.Inv := { hi with }

theorem State.Inv.useDraw : s.useDraw.Inv := { hi with epoch_lt := Nat.lt_succ_of_lt hi.epoch_lt }

theorem State.Inv.daddrNext : s.daddrNext.Inv := { hi with }

theorem State.Inv.txDrop : s.txDrop.Inv := { hi with }

theorem State.Inv.setDlen (v : BitVec 26) : (s.setDlen v).Inv := by
  unfold State.setDlen
  split
  · exact { hi with dlen_le := ‹_› }
  · exact hi

/-- A write by name: DLEN alone is in the invariant (`10_state.md` rule R35). -/
theorem State.Inv.storeReg (v : RegValue) : (s.storeReg v).Inv := by
  cases v
  case dlen v => exact hi.setDlen v
  all_goals exact { hi with }

theorem State.Inv.dbufStore (b : Byte) : (s.dbufStore b).Inv :=
  whenIdle_keeps _ hi { hi with dbuf_wf := s.memWrite_wf _ [b] hi.dbuf_wf s.daddr.isLt }

/-- After end of stream a pushed byte is ignored, so an ended input stays empty (`10_state.md` rule R38). -/
theorem State.Inv.rxPush (b : Byte) : (s.rxPush b).Inv := by
  unfold State.rxPush
  split
  · exact hi
  · next he =>
    exact { hi with
      short_read_ended := fun h => absurd (hi.short_read_ended h).1 he
      drainshort_ended := fun h => absurd (hi.drainshort_ended h).1 he }

theorem State.Inv.declareEof : s.declareEof.Inv :=
  { hi with
    short_read_ended := fun h => ⟨rfl, (hi.short_read_ended h).2⟩
    drainshort_ended := fun h => ⟨rfl, (hi.drainshort_ended h).2⟩ }

theorem State.Inv.issue (w : Word) : (s.issue w).Inv := whenIdle_keeps _ hi { hi with }

theorem State.Inv.busRead (r : BusReg) : (s.busRead r).Inv := by
  apply State.Inv.withHostData
  obtain h | h | h | h := busReadEffect_cases s r <;> rw [h]
  · exact hi
  · exact hi.useDraw
  · exact hi.daddrNext
  · exact hi.txDrop

theorem hostAct_inv (a : HostAction) (h : hostAct a s = .next t) : t.Inv := by
  cases hostAct_effect a s t h with
  | ignored => exact hi
  | writeReg v => exact whenIdle_keeps _ hi (hi.storeReg v)
  | readReg d => exact hi.withHostData d
  | dbufStore b => exact hi.dbufStore b
  | rxPush b => exact hi.rxPush b
  | declareEof => exact hi.declareEof
  | issue w => exact hi.issue w
  | busRead r => exact hi.busRead r
  | reset => exact { invariantHoldsAtReset with epoch_lt := Nat.lt_succ_self _ }

theorem State.Inv.withScript (sc : List Turn) : { s with script := sc }.Inv := { hi with }

theorem step_inv (h : step s = .next t) : t.Inv := by
  obtain ⟨-, hs⟩ | ⟨a, rest, -, hs⟩ := step_cases s <;> rw [hs] at h
  · exact engineAct_inv (hi.withScript _) h
  · exact hostAct_inv (hi.withScript rest) a h

end

/-- Settles O8: one rule per operation of the state, assembled over the commands and the kinds of host effect. -/
theorem everyStepKeepsTheInvariant : Obligations.EveryStepKeepsTheInvariant := by
  unfold Obligations.EveryStepKeepsTheInvariant
  exact fun _ _ hi h => step_inv hi h

end Sys2Proof.Machine

/-! The stream positions (`10_state.md` rule R27): what the commands and the host do to RX, TX and end of stream, and
to what the host configures. -/

namespace Sys2Proof.Machine

open Sys2Proof Host

/-- From `s` to `t`, RX loses at most a front part, TX gains at most a back part, each only if that is allowed, and
end of stream and what the host configures are as before. -/
structure MovesStreams (reads writes : Bool) (s t : State) : Prop where
  rx : t.rxq <:+ s.rxq
  tx : s.txq <+: t.txq
  rxKept : reads = false → t.rxq = s.rxq
  txKept : writes = false → t.txq = s.txq
  rxEof : t.rxEof = s.rxEof
  magic : t.magic = s.magic
  pver : t.pver = s.pver
  tsver : t.tsver = s.tsver
  daddr : t.daddr = s.daddr
  cmdl : t.cmdl = s.cmdl

section
variable {s t : State}

/-- A command that reads RX moves it alone, whatever its decoding function answers, if its results and its end of stream
move nothing else (`20_memory.md` rule R53). -/
theorem completeRead_movesStreams {α : Type} (o : DecOut α) (onOk : α → State → State) (onShort : State → State)
    (hok : ∀ a n, MovesStreams true false s (onOk a (s.rxTake n)))
    (hshort : MovesStreams true false s (onShort s).rxClear)
    (h : completeRead o onOk onShort s = .next t) : MovesStreams true false s t := by
  obtain ⟨a, n, -, rfl⟩ | ⟨c, n, -, rfl⟩ | ⟨-, -, rfl⟩ | ⟨-, -, rfl⟩ := completeRead_cases _ _ _ _ _ h
  · exact { hok a n with }
  · constructor <;> simp [List.drop_suffix]
  · exact { hshort with }
  · constructor <;> simp

theorem execVarintDec_movesStreams (h : execVarintDec s = .next t) : MovesStreams true false s t := by
  refine completeRead_movesStreams _ _ _ (fun v n => ?_) ?_ h <;> constructor <;> simp [List.drop_suffix]

theorem execVarstrDec_movesStreams (h : execVarstrDec s = .next t) : MovesStreams true false s t := by
  refine completeRead_movesStreams _ _ _ (fun b n => ?_) ?_ h
  · constructor <;> simp [List.drop_suffix]
  · obtain ⟨l, n, -, -, hv⟩ | ⟨-, hv⟩ := varstrShort_cases s <;> rw [hv] <;> constructor <;> simp

theorem execNetaddrDec_movesStreams (ts : Bool) (h : execNetaddrDec ts s = .next t) : MovesStreams true false s t := by
  refine completeRead_movesStreams _ _ _ (fun a n => ?_) ?_ h <;> constructor <;> simp [List.drop_suffix]

theorem execHdrDec_movesStreams (h : execHdrDec s = .next t) : MovesStreams true false s t := by
  obtain ⟨-, -, rfl⟩ | ⟨-, -, rfl⟩ | ⟨-, -, -, rfl⟩ | ⟨-, -, rfl⟩ | ⟨-, -, -, rfl⟩ |
    ⟨e, -, -, -, ⟨-, rfl⟩ | ⟨-, -, rfl⟩ | ⟨-, -, rfl⟩⟩ := execHdrDec_cases s t h <;>
  constructor <;> simp [List.drop_suffix]

theorem execBodyRd_movesStreams (h : execBodyRd s = .next t) : MovesStreams true false s t := by
  obtain ⟨-, rfl⟩ | ⟨-, -, rfl⟩ | ⟨-, -, -, rfl⟩ | ⟨-, -, -, rfl⟩ := execBodyRd_cases s t h <;>
  constructor <;> simp [List.drop_suffix]

theorem finish_txPut_movesStreams (bs : List Byte) (c : ErrCode) (h : finish (s.txPut bs) c = .next t) :
    MovesStreams false true s t := by
  cases h
  constructor <;> simp

theorem exec_movesStreams (i : Instr) (h : exec i s = .next t) : MovesStreams (readsRx i) (writesTx i) s t := by
  cases i with
  | varintDec => exact execVarintDec_movesStreams h
  | varstrDec => exact execVarstrDec_movesStreams h
  | netaddrDec ts => exact execNetaddrDec_movesStreams ts h
  | hdrDec => exact execHdrDec_movesStreams h
  | bodyRd => exact execBodyRd_movesStreams h
  | varintEnc => exact finish_txPut_movesStreams _ _ h
  | netaddrEnc ts => exact finish_txPut_movesStreams _ _ h
  | hdrEnc => exact finish_txPut_movesStreams _ _ h
  | varstrEnc => obtain ⟨-, rfl⟩ := execVarstrEnc_cases s t h; exact finish_txPut_movesStreams _ _ rfl
  | bodyWr => obtain ⟨-, rfl⟩ := execBodyWr_cases s t h; exact finish_txPut_movesStreams _ _ rfl
  | nop => cases h; constructor <;> simp
  | clrerr => cases h; constructor <;> simp
  | cksumGen => obtain ⟨-, rfl⟩ := execCksumGen_cases s t h; constructor <;> simp
  | cksumVfy => obtain ⟨-, rfl⟩ := execCksumVfy_cases s t h; constructor <;> simp
  | hdrBuild => obtain ⟨-, rfl⟩ | ⟨-, -, rfl⟩ := execHdrBuild_cases s t h <;> constructor <;> simp

end

/-- Settles O11: the frame of every command on the streams and on the host's configuration. -/
theorem commandsMoveTheStreamsOneWay : Obligations.CommandsMoveTheStreamsOneWay := by
  unfold Obligations.CommandsMoveTheStreamsOneWay
  intro i s t h
  obtain ⟨rx, tx, rxKept, txKept, rxEof, magic, pver, tsver, daddr, cmdl⟩ := exec_movesStreams i h
  exact ⟨rx, tx, rxKept, txKept, rxEof, magic, pver, tsver, daddr, cmdl⟩

/-! ### End of stream is permanent until reset -/

/-- End of stream is declared in `t` and RX is a back part of `q`. -/
structure EndedWithin (q : List Byte) (t : State) : Prop where
  rxEof : t.rxEof = true
  rxq : t.rxq <:+ q

section
variable {q : List Byte} {s t : State} (he : EndedWithin q s)
include he

theorem engineAct_endedWithin (h : engineAct s = .next t) : EndedWithin q t := by
  obtain ⟨-, ha⟩ | ⟨-, i, -, ha⟩ | ⟨-, -, ha⟩ := engineAct_cases s <;> rw [ha] at h
  · cases h; exact he
  · have hm := exec_movesStreams i h
    exact ⟨hm.rxEof.trans he.rxEof, hm.rx.trans he.rxq⟩
  · cases h; exact { he with }

theorem storeReg_endedWithin (v : RegValue) : EndedWithin q (s.storeReg v) := by
  cases v
  case dlen v =>
    simp only [State.storeReg, State.setDlen]
    split
    · exact { he with }
    · exact he
  all_goals exact { he with }

theorem busRead_endedWithin (r : BusReg) : EndedWithin q (s.busRead r) := by
  have hr : EndedWithin q (s.busReadEffect r) := by
    obtain h | h | h | h := busReadEffect_cases s r <;> rw [h] <;> exact { he with }
  exact { hr with }

/-- No host action but reset takes end of stream back or adds to an ended RX (`10_state.md` rule R38). -/
theorem hostAct_endedWithin (a : HostAction) (ha : a ≠ .reset) (h : hostAct a s = .next t) : EndedWithin q t := by
  cases hostAct_effect a s t h with
  | ignored => exact he
  | writeReg v => exact whenIdle_keeps _ he (storeReg_endedWithin he v)
  | readReg d => exact { he with }
  | dbufStore b => exact whenIdle_keeps _ he { he with }
  | rxPush b => rw [State.rxPush, if_pos he.rxEof]; exact he
  | declareEof => exact ⟨rfl, he.rxq⟩
  | issue w => exact whenIdle_keeps _ he { he with }
  | busRead r => exact busRead_endedWithin he r
  | reset hr => exact absurd hr ha

end

/-- Settles O10: commands and host actions keep an ended input ended and within what was left of it. -/
theorem endOfStreamIsPermanent : Obligations.EndOfStreamIsPermanent := by
  unfold Obligations.EndOfStreamIsPermanent
  intro s t he hr h
  have hs : ∀ sc, EndedWithin s.rxq { s with script := sc } := fun _ => ⟨he, List.suffix_refl _⟩
  have ht : EndedWithin s.rxq t := by
    obtain ⟨-, hst⟩ | ⟨a, rest, hsc, hst⟩ := step_cases s <;> rw [hst] at h
    · exact engineAct_endedWithin (hs _) h
    · exact hostAct_endedWithin (hs rest) a (fun ha => hr rest (ha ▸ hsc)) h
  exact ⟨ht.rxEof, ht.rxq⟩

end Sys2Proof.Machine

/-! Noninterference (`10_state.md` rules R29, R36): the fields of the state that no command reads as an operand. -/

namespace Sys2Proof.Machine

open Sys2Proof Host

/-- The fields of STATUS that a command writes and none reads (`10_state.md` rule R29). -/
structure StatusFields where
  err : Byte
  esticky : Bool
  drainshort : Bool
  nats : Bool

/-- The STATUS fields of a state. -/
def State.statusFields (s : State) : StatusFields where
  err := s.err
  esticky := s.esticky
  drainshort := s.drainshort
  nats := s.nats

/-- The state with other values in the fields that no command reads: STATUS and DADDR. -/
def State.withUnread (s : State) (f : StatusFields) (d : BitVec 25) : State :=
  { s with err := f.err, esticky := f.esticky, drainshort := f.drainshort, nats := f.nats, daddr := d }

theorem State.withUnread_self (s : State) : s.withUnread s.statusFields s.daddr = s := rfl

/-- What the command does in `s` does not depend on the fields it does not read: whatever they hold it holds, or it ends
with the same code from the same results, having changed the STATUS fields by `g` and DADDR not at all. -/
inductive Blind (i : Instr) (s : State) : Prop
  | holds (h : ∀ f d, exec i (s.withUnread f d) = .next (s.withUnread f d))
  | ends (c : ErrCode) (u : State) (g : StatusFields → StatusFields)
      (h : ∀ f d, exec i (s.withUnread f d) = .next ((u.withUnread (g f) d).complete c))

/-- A command that reads RX is blind to the unread fields if its results and its end of stream are. -/
theorem completeRead_blind {α : Type} (i : Instr) (s : State) (o : DecOut α) (onOk : α → State → State)
    (onShort : State → State) (g : StatusFields → StatusFields)
    (hx : ∀ f d, exec i (s.withUnread f d) = completeRead o onOk onShort (s.withUnread f d))
    (hok : ∀ a u f d, onOk a (u.withUnread f d) = (onOk a u).withUnread (g f) d)
    (hshort : ∀ f d, onShort (s.withUnread f d) = (onShort s).withUnread f d) : Blind i s := by
  cases o with
  | ok a n => exact .ends .ok (onOk a (s.rxTake n)) g fun f d => by rw [hx, ← hok]; rfl
  | err c n => exact .ends c (s.rxTake n) id hx
  | short =>
    cases he : s.rxEof with
    | false => exact .holds fun f d => (hx f d).trans (completeRead_waits _ _ _ he)
    | true =>
      refine .ends .ioShortRead (onShort s).rxClear id fun f d => ?_
      rw [hx, completeRead_ended onOk onShort (s.withUnread f d) he, hshort]
      rfl

theorem varstrShort_withUnread (s : State) (f : StatusFields) (d : BitVec 25) :
    varstrShort (s.withUnread f d) = (varstrShort s).withUnread f d := by
  unfold varstrShort
  rw [show (s.withUnread f d).rxq = s.rxq from rfl]
  split
  · split <;> rfl
  · rfl
  · rfl

/-! ### Every command is blind to the unread fields -/

/-- DRAINSHORT written, the other STATUS fields as before. -/
def StatusFields.setDrainshort (b : Bool) (f : StatusFields) : StatusFields := { f with drainshort := b }

/-- HDR.DEC takes its branch by RX, end of stream and MAGIC alone (`44_header.md` rule R181). -/
theorem hdrDec_blind (s : State) : Blind .hdrDec s := by
  by_cases hl : s.rxq.length < Config.hdrLen
  · cases he : s.rxEof with
    | false => exact .holds fun f d => execHdrDec_waits (s.withUnread f d) hl he
    | true =>
      by_cases hq : s.rxq.length = 0
      · exact .ends .ioEof s (.setDrainshort false) fun f d => execHdrDec_eof (s.withUnread f d) hq he
      · exact .ends .ioShortRead s.rxClear (.setDrainshort false) fun f d =>
          execHdrDec_short (s.withUnread f d) hl hq he
  · by_cases hz : Config.maxPayload < (headerOf s.rxq).size.toNat
    · exact .ends .framePayloadTooLarge ((s.rxTake Config.hdrLen).latch (headerOf s.rxq)) (.setDrainshort false)
        fun f d => execHdrDec_tooLarge (s.withUnread f d) hl hz
    · cases hv : headerError s.magic (headerOf s.rxq) with
      | none =>
        exact .ends .ok ((s.rxTake Config.hdrLen).latch (headerOf s.rxq)) (.setDrainshort false)
          fun f d => execHdrDec_accepts (s.withUnread f d) hl hz hv
      | some e =>
        by_cases hd : Config.hdrLen + (headerOf s.rxq).size.toNat ≤ s.rxq.length
        · exact .ends e ((s.rxTake (Config.hdrLen + (headerOf s.rxq).size.toNat)).latch (headerOf s.rxq))
            (.setDrainshort false) fun f d => execHdrDec_drains (s.withUnread f d) hl hz e hv hd
        · cases he : s.rxEof with
          | false => exact .holds fun f d => execHdrDec_drainWaits (s.withUnread f d) hl hz e hv hd he
          | true =>
            exact .ends e (s.rxClear.latch (headerOf s.rxq)) (.setDrainshort true)
              fun f d => execHdrDec_drainShort (s.withUnread f d) hl hz e hv hd he

/-- BODY.RD tests H_SIZE, then reads RX (`45_body_system.md` rule R196). -/
theorem bodyRd_blind (s : State) : Blind .bodyRd s := by
  by_cases hz : Config.maxPayload < s.hSize.toNat
  · exact .ends .framePayloadTooLarge s id fun _ _ => if_pos hz
  · exact completeRead_blind _ s (getBytes s.rxq s.hSize.toNat) (fun b s => s.bodyStored b)
      (fun s => s.bodyLost s.hSize.toNat) id (fun _ _ => if_neg hz) (fun _ _ _ _ => rfl) fun _ _ => rfl

section
variable {s t : State}

theorem cksumVfy_blind (h : execCksumVfy s = .next t) : Blind .cksumVfy s := by
  obtain ⟨hd, -⟩ := execCksumVfy_cases s t h
  exact .ends (if checksum (s.memRead 0 s.dlen.toNat) = s.hCksum then .ok else .frameChecksumMismatch)
    (s.setCk (checksum (s.memRead 0 s.dlen.toNat))) id fun f d => execCksumVfy_eq (s.withUnread f d) hd

theorem hdrBuild_blind (h : execHdrBuild s = .next t) : Blind .hdrBuild s := by
  obtain ⟨hc, -⟩ | ⟨hc, hd, -⟩ := execHdrBuild_cases s t h
  · exact .ends .cmdBadOperand s id fun _ _ => if_pos hc
  · exact .ends .ok (s.setHeader (s.builtHeader (s.memRead 0 s.dlen.toNat))) id fun f d =>
      execHdrBuild_eq (s.withUnread f d) hd hc

theorem exec_blind (i : Instr) (h : exec i s = .next t) : Blind i s := by
  cases i with
  | nop => exact .ends .ok s id fun _ _ => rfl
  | varintEnc => exact .ends .ok (s.txPut (varintEncode s.val.toNat)) id fun _ _ => rfl
  | varintDec =>
    exact completeRead_blind _ s (varintDecode s.rxq) (fun v s => { s with val := BitVec.ofNat 64 v }) id id
      (fun _ _ => rfl) (fun _ _ _ _ => rfl) fun _ _ => rfl
  | varstrEnc =>
    exact .ends .ok (s.txPut (varintEncode s.dlen.toNat ++ s.memRead 0 s.dlen.toNat)) id fun f d =>
      execVarstrEnc_eq (s.withUnread f d) (execVarstrEnc_dlen s t h)
  | varstrDec =>
    exact completeRead_blind _ s (varstrDecode s.rxq) (fun b s => s.bodyStored b) varstrShort id
      (fun _ _ => rfl) (fun _ _ _ _ => rfl) (varstrShort_withUnread s)
  | netaddrEnc ts =>
    exact .ends .ok (s.txPut (netaddrEncode (hasTs ts s.pver s.tsver) s.netAddr)) id fun _ _ => rfl
  | netaddrDec ts =>
    exact completeRead_blind _ s (netaddrDecode (hasTs ts s.pver s.tsver) s.rxq)
      (fun a u => u.setNetAddr (hasTs ts s.pver s.tsver) a) id (fun f => { f with nats := hasTs ts s.pver s.tsver })
      (fun _ _ => rfl) (fun _ _ _ _ => rfl) fun _ _ => rfl
  | cksumGen =>
    exact .ends .ok (s.setCk (checksum (s.memRead 0 s.dlen.toNat))) id fun f d =>
      execCksumGen_eq (s.withUnread f d) (execCksumGen_dlen s t h)
  | cksumVfy => exact cksumVfy_blind h
  | hdrBuild => exact hdrBuild_blind h
  | hdrEnc => exact .ends .ok (s.txPut (headerBytes s.header)) id fun _ _ => rfl
  | hdrDec => exact hdrDec_blind s
  | bodyRd => exact bodyRd_blind s
  | bodyWr =>
    exact .ends .ok (s.txPut (s.memRead 0 s.dlen.toNat)) id fun f d =>
      execBodyWr_eq (s.withUnread f d) (execBodyWr_dlen s t h)
  | clrerr => exact .ends .ok s (fun f => { f with esticky := false }) fun _ _ => rfl

end

/-- Settles O18: DADDR is not among what the command reads, and passes through it. -/
theorem engineIgnoresDaddr : Obligations.EngineIgnoresDaddr := by
  unfold Obligations.EngineIgnoresDaddr
  intro i s t d h
  obtain hb | ⟨c, u, g, hb⟩ := exec_blind i h
  · cases (hb s.statusFields s.daddr).symm.trans h
    exact hb s.statusFields d
  · cases (hb s.statusFields s.daddr).symm.trans h
    exact hb s.statusFields d

/-- Settles O17: a completion is the same one from the same results, with the other STATUS fields passed on. -/
theorem statusFieldsAreNotOperands : Obligations.StatusFieldsAreNotOperands := by
  unfold Obligations.StatusFieldsAreNotOperands
  intro i s t e k d n hs h ht
  obtain hb | ⟨c, u, g, hb⟩ := exec_blind i h
  · cases (hb s.statusFields s.daddr).symm.trans h
    exact absurd (hs.symm.trans ht) nofun
  · cases (hb s.statusFields s.daddr).symm.trans h
    exact ⟨_, hb ⟨e, k, d, n⟩ s.daddr, rfl, rfl⟩

end Sys2Proof.Machine

/-! The host's accesses (`10_state.md` rules R28, R35, R36, R40, R46, R48, `20_memory.md` rule R62), and what
a step runs. -/

namespace Sys2Proof.Machine

open Sys2Proof Host

/-! ### A step runs the latched command -/

/-- A command comes back from its word (rule R77). -/
theorem decode_encode (i : Instr) : decode (encode i) = .ok i := by
  cases i
  case netaddrEnc t => cases t <;> rfl
  case netaddrDec t => cases t <;> rfl
  all_goals rfl

theorem engineAct_idle (s : State) (h : s.busy = false) : engineAct s = .next s := if_neg (by simp [h])

theorem engineAct_latched (s : State) (i : Instr) (hb : s.busy = true) (hd : decode s.cmdl = .ok i) :
    engineAct s = exec i s := by
  rw [engineAct, if_pos hb, hd]

theorem step_engine (s : State) (h : s.script = [] ∨ ∃ rest, s.script = .engine :: rest) :
    step s = engineAct { s with script := s.script.tail } := by
  obtain ⟨-, hs⟩ | ⟨a, rest, hsc, -⟩ := step_cases s
  · exact hs
  · simp [hsc] at h

theorem step_host (s : State) (a : HostAction) (rest : List Turn) (h : s.script = .host a :: rest) :
    step s = hostAct a { s with script := rest } := by
  simp [step, h]

/-- Settles O5: the engine's turn and the host's, by the head of the schedule. -/
theorem stepRunsTheLatchedCommand : Obligations.StepRunsTheLatchedCommand := by
  unfold Obligations.StepRunsTheLatchedCommand
  refine ⟨fun s i h hb hd => ?_, fun s h hb => ?_, step_host, fun s i => ?_⟩
  · rw [step_engine s h]
    exact engineAct_latched _ i hb hd
  · rw [step_engine s h]
    exact engineAct_idle _ hb
  · have hw : s.withFetchWord 8 (encode i).toNat = s.latchWord (encode i) := by
      simp [State.withFetchWord]
    rw [hw, step_engine _ (.inr ⟨_, rfl⟩)]
    exact engineAct_latched _ i rfl (decode_encode i)

/-! ### Accesses at an offset -/

theorem hostAct_busWrite (s : State) (offset : Nat) (w : Word) (h : offset % 4 = 0) :
    hostAct (.busWrite 4 offset w) s = .next (s.busStore (.ofOffset offset) w) :=
  if_pos (by simp [busAccessOk, busWidthOk, busOffsetOk, h])

theorem hostAct_busRead (s : State) (offset : Nat) (h : offset % 4 = 0) :
    hostAct (.busRead 4 offset) s = .next (s.busRead (.ofOffset offset)) :=
  if_pos (by simp [busAccessOk, busWidthOk, busOffsetOk, h])

/-! ### STATUS (`10_state.md` rule R28) -/

/-- Bit `i` of STATUS as the host reads it. -/
theorem statusWord_getLsbD (s : State) (i : Nat) : (statusWord s).getLsbD i =
    if i = 0 then s.busy else if i = 1 then s.esticky else if i = 2 then s.rxEof else if i = 3 then s.drainshort
    else if i = 4 then s.nats else decide (8 ≤ i) && s.err.getLsbD (i - 8) := by
  change (0#16 ++ s.err ++ 0#3 ++ BitVec.ofBool s.nats ++ BitVec.ofBool s.drainshort ++ BitVec.ofBool s.rxEof
      ++ BitVec.ofBool s.esticky ++ BitVec.ofBool s.busy).getLsbD i = _
  simp only [BitVec.getLsbD_append, BitVec.getLsbD_ofBool, BitVec.getLsbD_zero]
  rcases i with _ | _ | _ | _ | _ | _ | _ | _ | i
  case succ.succ.succ.succ.succ.succ.succ.succ =>
    have h : ¬ i + 1 + 1 + 1 < 3 := by omega
    simpa [h] using BitVec.lt_of_getLsbD
  all_goals simp

/-- The reserved bits of STATUS are 0. -/
theorem statusWord_reserved (s : State) (n k : Nat) (h : 5 ≤ n ∧ n + k ≤ 8 ∨ 16 ≤ n) :
    (statusWord s).extractLsb' n k = 0 := by
  refine BitVec.eq_of_getLsbD_eq fun i hi => ?_
  have hbit : (statusWord s).getLsbD (n + i) = false := by
    rw [statusWord_getLsbD]
    grind
  simp [hbit]

theorem statusWord_err (s : State) : (statusWord s).extractLsb' 8 8 = s.err := by
  refine BitVec.eq_of_getLsbD_eq fun i hi => ?_
  have hbit : (statusWord s).getLsbD (8 + i) = s.err.getLsbD i := by
    rw [statusWord_getLsbD]
    grind
  simp [hbit, hi]

/-- Settles O16: the word that a read at 0x04 returns, field by field, and the ignored writes. -/
theorem statusWordLayout : Obligations.StatusWordLayout := by
  unfold Obligations.StatusWordLayout
  refine ⟨fun s => ⟨_, hostAct_busRead s 0x04 rfl, _, rfl, ?_⟩,
    fun s w => ⟨hostAct_busWrite s 0x04 w rfl, ?_⟩⟩
  · have hbit := statusWord_getLsbD s
    exact ⟨hbit 0, hbit 1, hbit 2, hbit 3, hbit 4, statusWord_reserved s 5 3 (by decide), statusWord_err s,
      statusWord_reserved s 16 16 (by decide)⟩
  · exact congrArg Outcome.next (whenIdle_keeps (P := (· = s)) _ rfl rfl)

/-! ### Issue (`10_state.md` rule R48) -/

theorem issue_idle (s : State) (w : Word) (h : s.busy = false) :
    s.issue w = { s with cmdl := w.setWidth 8, busy := true } :=
  whenIdle_idle _ _ h

/-- Settles O52: the latched word, by name and at offset 0x00. -/
theorem issueLatchesTheWord : Obligations.IssueLatchesTheWord := by
  unfold Obligations.IssueLatchesTheWord
  intro s w h
  have hi := congrArg (Outcome.next (φ := Fault) (ρ := Refusal)) (issue_idle s w h)
  exact ⟨hi, (hostAct_busWrite s 0x00 w rfl).trans hi⟩

/-! ### Registers by name (`10_state.md` rules R45, R46) -/

theorem writeReg_idle (s : State) (v : RegValue) (h : s.busy = false) : s.writeReg v = s.storeReg v :=
  whenIdle_idle _ _ h

section
variable (s : State)

/-- What was stored is what is read, but in a read-only register and a DLEN above its bound. -/
theorem storeReg_readReg (v : RegValue) (hs : v.name ≠ .status) (hc : v.name ≠ .ck)
    (hd : ∀ d, v = .dlen d → d.toNat ≤ Config.dbufCap) : (s.storeReg v).readReg v.name = v := by
  cases v
  case status => exact absurd rfl hs
  case ck => exact absurd rfl hc
  case dlen d => simp [State.storeReg, State.setDlen, hd d rfl, State.readReg, RegValue.name]
  all_goals rfl

theorem storeReg_ignored (v : RegValue)
    (h : v.name = .status ∨ v.name = .ck ∨ ∃ d, v = .dlen d ∧ Config.dbufCap < d.toNat) : s.storeReg v = s := by
  cases v
  case status | ck => rfl
  case dlen d =>
    have hd : ¬ d.toNat ≤ Config.dbufCap := by simpa [RegValue.name] using h
    exact if_neg hd
  all_goals simp [RegValue.name] at h

/-- A store in one register leaves every other as it was. -/
theorem storeReg_readReg_ne (v : RegValue) (r : RegName) (h : r ≠ v.name) :
    (s.storeReg v).readReg r = s.readReg r := by
  cases v
  case dlen d =>
    simp only [State.storeReg, State.setDlen]
    split
    · cases r <;> simp [RegValue.name] at h <;> rfl
    · rfl
  all_goals cases r <;> simp [RegValue.name] at h <;> rfl

/-- A store touches nothing but the registers that the host may write. -/
theorem storeReg_withHostRegs (v : RegValue) : s.withHostRegs (s.storeReg v) = s.storeReg v := by
  cases v
  case dlen d =>
    simp only [State.storeReg, State.setDlen]
    split <;> rfl
  all_goals rfl

end

/-- Settles O53: the rules of a store, for the idle host, and of a read by name. -/
theorem namedRegistersReadBack : Obligations.NamedRegistersReadBack := by
  unfold Obligations.NamedRegistersReadBack
  refine ⟨fun s v hb => ?_, fun _ _ => rfl, fun _ => ?_⟩
  · have hw := writeReg_idle s v hb
    rw [hw]
    exact ⟨congrArg Outcome.next hw, storeReg_readReg s v, storeReg_ignored s v, storeReg_readReg_ne s v,
      storeReg_withHostRegs s v⟩
  · exact ⟨rfl, rfl, rfl, rfl, rfl, rfl, rfl, rfl, rfl, rfl, rfl, rfl, rfl, rfl, rfl, rfl, rfl⟩

/-! ### The DDATA window (`10_state.md` rule R36) -/

theorem daddr_succ_toNat (d : BitVec 25) : (d + 1).toNat = (d.toNat + 1) % 2 ^ 25 := by
  simp

theorem dbufStore_idle (s : State) (b : Byte) (h : s.busy = false) :
    s.dbufStore b = (s.memWrite s.daddr.toNat [b]).daddrNext := whenIdle_idle _ _ h

/-- The byte at DADDR and every other, after a store through the window. -/
theorem storeAtDaddr_dbufByte (s : State) (b : Byte) (a : Nat) :
    (s.memWrite s.daddr.toNat [b]).daddrNext.dbufByte a = if a = s.daddr.toNat then b else s.dbufByte a := by
  have hn : (s.memWrite s.daddr.toNat [b]).daddrNext.dbufByte a = (s.memWrite s.daddr.toNat [b]).dbufByte a := rfl
  rw [hn, State.memWrite_dbufByte]
  by_cases ha : a = s.daddr.toNat
  · simp [ha]
  · rw [dif_neg (by simp; omega), if_neg ha]

theorem busRead_ddata_idle (s : State) (h : s.busy = false) :
    s.busRead .ddata = { s.daddrNext with hostData := .word ((s.dbufByte s.daddr.toNat).setWidth 32) } := by
  simp [State.busRead, State.busReadEffect, State.dbufReadEffect, State.busWord, dDataByte, h]

/-- Settles O55: the store and the read at DADDR, each by name and at offset 0x64, and the write of DADDR. -/
theorem dataWindowMovesOn : Obligations.DataWindowMovesOn := by
  unfold Obligations.DataWindowMovesOn
  intro s hb
  refine ⟨fun w act ha => ?_, fun act ha => ?_, fun w => ?_⟩
  · have hs : hostAct act s = .next (s.memWrite s.daddr.toNat [w.setWidth 8]).daddrNext := by
      rw [← dbufStore_idle s _ hb]
      obtain rfl | rfl : act = .busWrite 4 0x64 w ∨ act = .dbufWrite (w.setWidth 8) := by simpa using ha
      · exact hostAct_busWrite s 0x64 w rfl
      · rfl
    refine ⟨_, hs, ?_, fun a ha => ?_, daddr_succ_toNat _, rfl⟩
    · rw [storeAtDaddr_dbufByte, if_pos rfl]
    · rw [storeAtDaddr_dbufByte, if_neg ha]
  · have hs : hostAct act s = .next (s.busRead .ddata) := by
      obtain rfl | rfl : act = .busRead 4 0x64 ∨ act = .dbufRead := by simpa using ha
      · exact hostAct_busRead s 0x64 rfl
      · rfl
    rw [busRead_ddata_idle s hb] at hs
    exact ⟨_, hs, rfl, daddr_succ_toNat _, rfl⟩
  · have hs : hostAct (.busWrite 4 0x60 w) s = .next { s with daddr := w.setWidth 25 } :=
      (hostAct_busWrite s 0x60 w rfl).trans (congrArg Outcome.next (writeReg_idle s _ hb))
    exact ⟨_, hs, BitVec.toNat_setWidth .., rfl⟩

/-! ### The stream registers (`10_state.md` rule R40) -/

theorem rxctlWord_bits (b : Bool) : ((BitVec.ofBool b).setWidth 32).getLsbD 0 = b ∧
    ((BitVec.ofBool b).setWidth 32).extractLsb' 1 31 = 0 := by
  cases b <;> decide

/-- TXDATA of a queue with a byte: that byte, bit 8 set, zeros above. -/
theorem txDataWord_cons_toNat (s : State) (b : Byte) (q : List Byte) (h : s.txq = b :: q) :
    (txDataWord s).toNat = 256 + b.toNat := by
  have hw : txDataWord s = 0#23 ++ 1#1 ++ b := by rw [txDataWord, h]
  have hb : 1 <<< 8 + b.toNat = 1 <<< 8 ||| b.toNat := Nat.shiftLeft_add_eq_or_of_lt b.isLt 1
  rw [hw]
  change (0#23 ++ 1#1 ++ b).toNat = _
  rw [BitVec.toNat_append]
  exact hb.symm

theorem txDataWord_cons_bits (s : State) (b : Byte) (q : List Byte) (h : s.txq = b :: q) :
    (txDataWord s).getLsbD 8 = true ∧ (txDataWord s).extractLsb' 0 8 = b ∧ (txDataWord s).extractLsb' 9 23 = 0 := by
  have hn := txDataWord_cons_toNat s b q h
  have hb := b.isLt
  refine ⟨?_, BitVec.eq_of_toNat_eq ?_, BitVec.eq_of_toNat_eq ?_⟩
  · rw [BitVec.getLsbD, hn, Nat.testBit_eq_decide_div_mod_eq]
    exact decide_eq_true (by omega)
  · rw [BitVec.extractLsb'_toNat, hn]
    simpa using hb
  · have hq : (256 + b.toNat) / 2 ^ 9 = 0 := by omega
    rw [BitVec.extractLsb'_toNat, hn, Nat.shiftRight_eq_div_pow, hq]
    rfl

theorem busRead_txdata_cons (s : State) (b : Byte) (q : List Byte) (h : s.txq = b :: q) :
    s.busRead .txdata = { s with txq := q, hostData := .word (txDataWord s) } := by
  simp [State.busRead, State.busReadEffect, State.txDrop, State.busWord, h]

theorem busRead_txdata_nil (s : State) (h : s.txq = []) : s.busRead .txdata = { s with hostData := .word 0 } := by
  simp [State.busRead, State.busReadEffect, State.txDrop, State.busWord, txDataWord, h]

/-- TXDATA is read at its offset and by name alike. -/
theorem hostAct_txdata (s : State) (act : HostAction) (h : act ∈ [HostAction.busRead 4 0x70, .txPop]) :
    hostAct act s = .next (s.busRead .txdata) := by
  obtain rfl | rfl : act = .busRead 4 0x70 ∨ act = .txPop := by simpa using h
  · exact hostAct_busRead s 0x70 rfl
  · rfl

/-- Settles O56: RXDATA, RXCTL and TXDATA, each at its offset and by name. -/
theorem streamRegisters : Obligations.StreamRegisters := by
  unfold Obligations.StreamRegisters
  refine ⟨fun s w act h => ?_, fun s w => ?_, fun _ => rfl, fun s => ?_, fun s b q hq act h => ?_,
    fun s hq act h => ?_⟩
  · obtain rfl | rfl : act = .busWrite 4 0x68 w ∨ act = .rxPush (w.setWidth 8) := by simpa using h
    · exact hostAct_busWrite s 0x68 w rfl
    · rfl
  · exact hostAct_busWrite s 0x6C w rfl
  · exact ⟨_, hostAct_busRead s 0x6C rfl, rxctlWord_bits s.rxEof⟩
  · exact ⟨_, by rw [hostAct_txdata s act h, busRead_txdata_cons s b q hq], txDataWord_cons_bits s b q hq⟩
  · rw [hostAct_txdata s act h, busRead_txdata_nil s hq]

end Sys2Proof.Machine

/-! When a command completes (`20_memory.md` rules R53, R54): bytes that come behind the ones a completion took do not
change it, and declaring end of stream completes every command that holds. -/

namespace Sys2Proof.Machine

open Sys2Proof Host

/-- The state with `r` queued behind what RX holds. -/
def State.queueBehind (s : State) (r : List Byte) : State := { s with rxq := s.rxq ++ r }

theorem State.queueBehind_rxTake (s : State) (r : List Byte) (n : Nat) (h : n ≤ s.rxq.length) :
    (s.queueBehind r).rxTake n = (s.rxTake n).queueBehind r :=
  congrArg (fun q => { s with rxq := q }) (List.drop_append_of_le_length h)

theorem State.length_le_queueBehind (s : State) (r : List Byte) : s.rxq.length ≤ (s.queueBehind r).rxq.length :=
  List.length_append ▸ Nat.le_add_right _ _

/-! ### Decoding functions decide on what they have (`00_scope.md` rule R15) -/

/-- A decoding function that has decided consumes bytes that are there, and decides the same with more behind them. -/
structure DecidesOnPrefix {α : Type} (f : List Byte → DecOut α) : Prop where
  ok : ∀ q r a n, f q = .ok a n → n ≤ q.length ∧ f (q ++ r) = .ok a n
  err : ∀ q r c n, f q = .err c n → n ≤ q.length ∧ f (q ++ r) = .err c n

theorem slice_append_left (q r : List Byte) (i j : Nat) (h : j ≤ q.length) : slice (q ++ r) i j = slice q i j := by
  by_cases hi : i ≤ q.length
  · rw [slice, slice, List.drop_append_of_le_length hi, List.take_append_of_le_length]
    rw [List.length_drop]
    omega
  · simp [slice, show j - i = 0 by omega]

theorem getBytes_decidesOnPrefix (k : Nat) : DecidesOnPrefix fun q => getBytes q k where
  ok q r a n h := by
    obtain ⟨hk, hg⟩ | ⟨-, hg⟩ := getBytes_cases q k <;> rw [hg] at h <;> cases h
    refine ⟨hk, ?_⟩
    rw [getBytes, if_pos (by rw [List.length_append]; omega), List.take_append_of_le_length hk]
  err q r c n h := by
    obtain ⟨-, hg⟩ | ⟨-, hg⟩ := getBytes_cases q k <;> rw [hg] at h <;> cases h

/-- A varint's tail that is there decides the same with more behind it (`40_varint.md` rule R102). -/
theorem varintTail_append (m lo : Nat) (q r : List Byte) (h : varintTail m lo q ≠ .short) :
    varintTail m lo (q ++ r) = varintTail m lo q := by
  have hm : m ≤ q.length := by
    obtain ⟨-, hs⟩ | ⟨hm, -⟩ | ⟨hm, -⟩ := varintTail_cases m lo q
    · exact absurd hs h
    · exact hm
    · exact hm
  have hr : ¬ (q ++ r).length < m := by rw [List.length_append]; omega
  rw [varintTail, varintTail, if_neg hr, if_neg (Nat.not_lt.mpr hm), List.take_append_of_le_length hm]

theorem varintDecode_append (q r : List Byte) (h : varintDecode q ≠ .short) :
    varintDecode (q ++ r) = varintDecode q := by
  cases q with
  | nil => exact absurd rfl h
  | cons d q =>
    simp only [List.cons_append, varintDecode] at h ⊢
    split_ifs at h ⊢
    · rfl
    all_goals exact varintTail_append _ _ _ _ h

theorem varintDecode_decidesOnPrefix : DecidesOnPrefix varintDecode where
  ok q r v n h := ⟨(varintDecode_ok q v n h).2.2, (varintDecode_append q r (by simp [h])).trans h⟩
  err q r c n h := ⟨(varintDecode_err q c n h).2.2, (varintDecode_append q r (by simp [h])).trans h⟩

theorem varstrDecode_decidesOnPrefix : DecidesOnPrefix varstrDecode where
  ok q r b n h := by
    obtain ⟨-, hd⟩ | ⟨_, _, -, hd⟩ | ⟨_, _, -, -, hd⟩ | ⟨_, _, -, -, -, hd⟩ | ⟨l, p, hv, hl, hq, hd⟩ :=
      varstrDecode_cases q <;> rw [hd] at h <;> cases h
    obtain ⟨hp, hv'⟩ := varintDecode_decidesOnPrefix.ok q r l p hv
    have hr : ¬ (q ++ r).length < p + l := by rw [List.length_append]; omega
    have hb : ((q ++ r).drop p).take l = (q.drop p).take l := by
      rw [List.drop_append_of_le_length hp, List.take_append_of_le_length]
      rw [List.length_drop]
      omega
    refine ⟨hq, ?_⟩
    simp only [varstrDecode, hv', if_neg (Nat.not_lt.mpr hl), if_neg hr, hb]
  err q r c n h := by
    obtain ⟨-, hd⟩ | ⟨e, p, hv, hd⟩ | ⟨l, p, hv, hl, hd⟩ | ⟨_, _, -, -, -, hd⟩ | ⟨_, _, -, -, -, hd⟩ :=
      varstrDecode_cases q <;> rw [hd] at h <;> cases h
    · obtain ⟨hp, hv'⟩ := varintDecode_decidesOnPrefix.err q r c n hv
      exact ⟨hp, by simp only [varstrDecode, hv']⟩
    · obtain ⟨hp, hv'⟩ := varintDecode_decidesOnPrefix.ok q r l n hv
      exact ⟨hp, by simp only [varstrDecode, hv', if_pos hl]⟩

theorem netaddrDecode_append (ts : Bool) (q r : List Byte) (h : (if ts then 30 else 26) ≤ q.length) :
    netaddrDecode ts (q ++ r) = netaddrDecode ts q := by
  cases ts <;> simp only [Bool.false_eq_true, if_false, if_true] at h <;>
    simp (disch := omega) [netaddrDecode, slice_append_left, Nat.not_lt.mpr h, List.length_append, if_neg]

theorem netaddrDecode_decidesOnPrefix (ts : Bool) : DecidesOnPrefix (netaddrDecode ts) where
  ok q r a n h := by
    obtain ⟨-, hd⟩ | ⟨hl, b, hd⟩ := netaddrDecode_cases ts q <;> rw [hd] at h <;> cases h
    exact ⟨hl, (netaddrDecode_append ts q r hl).trans hd⟩
  err q r c n h := by
    obtain ⟨-, hd⟩ | ⟨-, b, hd⟩ := netaddrDecode_cases ts q <;> rw [hd] at h <;> cases h

theorem headerOf_append (q r : List Byte) (h : Config.hdrLen ≤ q.length) : headerOf (q ++ r) = headerOf q := by
  have hl : 24 ≤ q.length := h
  simp (disch := omega) only [headerOf, slice_append_left]

/-! ### BODY.RD by its two branches (`45_body_system.md` rule R196) -/

theorem execBodyRd_tooLarge (s : State) (hz : Config.maxPayload < s.hSize.toNat) :
    execBodyRd s = .next (s.complete .framePayloadTooLarge) := if_pos hz

theorem execBodyRd_reads (s : State) (hz : ¬ Config.maxPayload < s.hSize.toNat) :
    execBodyRd s = completeRead (getBytes s.rxq s.hSize.toNat) (fun b s => s.bodyStored b)
      (fun s => s.bodyLost s.hSize.toNat) s := if_neg hz

/-! ### More input behind a completion (`20_memory.md` rule R54) -/

section
variable {s t : State} {r : List Byte}

/-- A command that reads RX completes alike with more bytes behind, if its decoding function decides on what it has and
its results do not depend on RX. -/
theorem completeRead_queueBehind {α : Type} {f : List Byte → DecOut α} {onOk : α → State → State}
    {onShort : State → State} (hf : DecidesOnPrefix f)
    (hok : ∀ a u, onOk a (u.queueBehind r) = (onOk a u).queueBehind r) (hb : s.busy = true) (he : s.rxEof = false)
    (h : completeRead (f s.rxq) onOk onShort s = .next t) (ht : t.busy = false) :
    completeRead (f (s.rxq ++ r)) onOk onShort (s.queueBehind r) = .next (t.queueBehind r) := by
  obtain ⟨a, n, ho, rfl⟩ | ⟨c, n, ho, rfl⟩ | ⟨-, hc, -⟩ | ⟨-, -, rfl⟩ := completeRead_cases _ _ _ _ _ h
  · obtain ⟨hn, hr⟩ := hf.ok _ r _ _ ho
    rw [hr, completeRead, State.queueBehind_rxTake s r n hn, hok]
    rfl
  · obtain ⟨hn, hr⟩ := hf.err _ r _ _ ho
    rw [hr, completeRead, State.queueBehind_rxTake s r n hn]
    rfl
  · exact absurd (he.symm.trans hc) nofun
  · exact absurd (hb.symm.trans ht) nofun

/-- A command that does not read RX passes it on. -/
theorem exec_queueBehind_of_not_readsRx (i : Instr) (hi : readsRx i = false) (h : exec i s = .next t) :
    exec i (s.queueBehind r) = .next (t.queueBehind r) := by
  cases i with
  | varintDec | varstrDec | netaddrDec | hdrDec | bodyRd => cases hi
  | nop | varintEnc | netaddrEnc | hdrEnc | clrerr => cases h; rfl
  | varstrEnc => obtain ⟨hd, rfl⟩ := execVarstrEnc_cases s t h; exact execVarstrEnc_eq (s.queueBehind r) hd
  | bodyWr => obtain ⟨hd, rfl⟩ := execBodyWr_cases s t h; exact execBodyWr_eq (s.queueBehind r) hd
  | cksumGen => obtain ⟨hd, rfl⟩ := execCksumGen_cases s t h; exact execCksumGen_eq (s.queueBehind r) hd
  | cksumVfy => obtain ⟨hd, rfl⟩ := execCksumVfy_cases s t h; exact execCksumVfy_eq (s.queueBehind r) hd
  | hdrBuild =>
    obtain ⟨hc, rfl⟩ | ⟨hc, hd, rfl⟩ := execHdrBuild_cases s t h
    · exact if_pos hc
    · exact execHdrBuild_eq (s.queueBehind r) hd hc

variable (hb : s.busy = true) (he : s.rxEof = false) (ht : t.busy = false)
include hb he ht

/-- HDR.DEC looks at the 24 bytes of the header and the payload it drains, and no further (`44_header.md` rule R181). -/
theorem execHdrDec_queueBehind (h : execHdrDec s = .next t) :
    execHdrDec (s.queueBehind r) = .next (t.queueBehind r) := by
  have hlen := s.length_le_queueBehind r
  have hdr (hl : Config.hdrLen ≤ s.rxq.length) : headerOf (s.queueBehind r).rxq = headerOf s.rxq :=
    headerOf_append s.rxq r hl
  have hlong (hl : Config.hdrLen ≤ s.rxq.length) : ¬ (s.queueBehind r).rxq.length < Config.hdrLen :=
    Nat.not_lt.mpr (hl.trans hlen)
  obtain ⟨-, -, rfl⟩ | ⟨-, hc, -⟩ | ⟨-, -, hc, -⟩ | ⟨hl, hz, rfl⟩ | ⟨hl, hz, hv, rfl⟩ |
    ⟨e, hl, hz, hv, ⟨hd, rfl⟩ | ⟨-, hc, -⟩ | ⟨-, -, rfl⟩⟩ := execHdrDec_cases s t h
  · exact absurd (hb.symm.trans ht) nofun
  · exact absurd (he.symm.trans hc) nofun
  · exact absurd (he.symm.trans hc) nofun
  · rw [execHdrDec_tooLarge _ (hlong hl) (by rwa [hdr hl]), hdr hl, State.queueBehind_rxTake s r _ hl]
    rfl
  · rw [execHdrDec_accepts _ (hlong hl) (by rw [hdr hl]; omega) (by rwa [hdr hl]), hdr hl,
      State.queueBehind_rxTake s r _ hl]
    rfl
  · rw [execHdrDec_drains _ (hlong hl) (by rw [hdr hl]; omega) e (by rwa [hdr hl]) (by rw [hdr hl]; omega), hdr hl,
      State.queueBehind_rxTake s r _ hd]
    rfl
  · exact absurd (he.symm.trans hc) nofun
  · exact absurd (hb.symm.trans ht) nofun

theorem execBodyRd_queueBehind (h : execBodyRd s = .next t) :
    execBodyRd (s.queueBehind r) = .next (t.queueBehind r) := by
  by_cases hz : Config.maxPayload < s.hSize.toNat
  · cases (execBodyRd_tooLarge s hz).symm.trans h
    exact execBodyRd_tooLarge (s.queueBehind r) hz
  · rw [execBodyRd_reads s hz] at h
    exact (execBodyRd_reads (s.queueBehind r) hz).trans
      (completeRead_queueBehind (getBytes_decidesOnPrefix s.hSize.toNat) (fun _ _ => rfl) hb he h ht)

theorem exec_queueBehind (i : Instr) (h : exec i s = .next t) :
    exec i (s.queueBehind r) = .next (t.queueBehind r) := by
  cases i with
  | varintDec =>
    change execVarintDec s = .next t at h
    exact completeRead_queueBehind varintDecode_decidesOnPrefix (fun _ _ => rfl) hb he h ht
  | varstrDec =>
    change execVarstrDec s = .next t at h
    exact completeRead_queueBehind varstrDecode_decidesOnPrefix (fun _ _ => rfl) hb he h ht
  | netaddrDec ts =>
    change execNetaddrDec ts s = .next t at h
    exact completeRead_queueBehind (netaddrDecode_decidesOnPrefix _) (fun _ _ => rfl) hb he h ht
  | hdrDec => exact execHdrDec_queueBehind hb he ht h
  | bodyRd => exact execBodyRd_queueBehind hb he ht h
  | nop | varintEnc | varstrEnc | netaddrEnc | cksumGen | cksumVfy | hdrBuild | hdrEnc | bodyWr | clrerr =>
    exact exec_queueBehind_of_not_readsRx _ rfl h

end

/-- Settles O14: decoding functions decide on the bytes they take, and the other commands pass RX on. -/
theorem moreInputDoesNotChangeACompletion : Obligations.MoreInputDoesNotChangeACompletion := by
  unfold Obligations.MoreInputDoesNotChangeACompletion
  exact fun i _ _ _ hb he h ht => exec_queueBehind hb he ht i h

/-! ### End of stream lifts a hold (`20_memory.md` rule R53) -/

/-- The step from `s` to `t` is a hold of `i`, and with end of stream declared `i` completes. -/
structure LiftedHold (i : Instr) (s t : State) : Prop where
  kept : t = s
  waiting : s.rxEof = false
  lifted : ∃ u, exec i s.declareEof = .next u ∧ u.busy = false

section
variable {s t : State} (ht : t.busy = true)
include ht

/-- A command that reads RX holds only on a short item, which an end of stream completes as a short read. -/
theorem completeRead_liftedHold {α : Type} (i : Instr) (o : DecOut α) (onOk : α → State → State)
    (onShort : State → State) (h : completeRead o onOk onShort s = .next t)
    (hx : exec i s.declareEof = completeRead o onOk onShort s.declareEof) : LiftedHold i s t := by
  obtain ⟨a, n, -, rfl⟩ | ⟨c, n, -, rfl⟩ | ⟨-, -, rfl⟩ | ⟨rfl, he, hs⟩ := completeRead_cases _ _ _ _ _ h
  · cases ht
  · cases ht
  · cases ht
  · exact ⟨hs, he, _, hx.trans (completeRead_ended _ _ _ rfl), rfl⟩

theorem execHdrDec_liftedHold (h : execHdrDec s = .next t) : LiftedHold .hdrDec s t := by
  obtain ⟨hl, he, hs⟩ | ⟨-, -, rfl⟩ | ⟨-, -, -, rfl⟩ | ⟨-, -, rfl⟩ | ⟨-, -, -, rfl⟩ |
    ⟨e, hl, hz, hv, ⟨-, rfl⟩ | ⟨-, -, rfl⟩ | ⟨hd, he, hs⟩⟩ := execHdrDec_cases s t h
  · by_cases hq : s.rxq.length = 0
    · exact ⟨hs, he, _, execHdrDec_eof s.declareEof hq rfl, rfl⟩
    · exact ⟨hs, he, _, execHdrDec_short s.declareEof hl hq rfl, rfl⟩
  iterate 6 cases ht
  · exact ⟨hs, he, _, execHdrDec_drainShort s.declareEof (Nat.not_lt.mpr hl) (Nat.not_lt.mpr hz) e hv
      (Nat.not_le.mpr hd) rfl, rfl⟩

theorem execBodyRd_liftedHold (h : execBodyRd s = .next t) : LiftedHold .bodyRd s t := by
  by_cases hz : Config.maxPayload < s.hSize.toNat
  · cases (execBodyRd_tooLarge s hz).symm.trans h
    cases ht
  · rw [execBodyRd_reads s hz] at h
    exact completeRead_liftedHold ht .bodyRd _ _ _ h (execBodyRd_reads s.declareEof hz)

/-- Only commands that read RX hold. -/
theorem exec_liftedHold (i : Instr) (h : exec i s = .next t) : readsRx i = true ∧ LiftedHold i s t := by
  cases i with
  | varintDec =>
    change execVarintDec s = .next t at h
    exact ⟨rfl, completeRead_liftedHold ht .varintDec _ _ _ h rfl⟩
  | varstrDec =>
    change execVarstrDec s = .next t at h
    exact ⟨rfl, completeRead_liftedHold ht .varstrDec _ _ _ h rfl⟩
  | netaddrDec ts =>
    change execNetaddrDec ts s = .next t at h
    exact ⟨rfl, completeRead_liftedHold ht (.netaddrDec ts) _ _ _ h rfl⟩
  | hdrDec => exact ⟨rfl, execHdrDec_liftedHold ht h⟩
  | bodyRd => exact ⟨rfl, execBodyRd_liftedHold ht h⟩
  | nop | varintEnc | netaddrEnc | hdrEnc | clrerr => cases h; cases ht
  | varstrEnc => obtain ⟨-, rfl⟩ := execVarstrEnc_cases s t h; cases ht
  | bodyWr => obtain ⟨-, rfl⟩ := execBodyWr_cases s t h; cases ht
  | cksumGen => obtain ⟨-, rfl⟩ := execCksumGen_cases s t h; cases ht
  | cksumVfy => obtain ⟨-, rfl⟩ := execCksumVfy_cases s t h; cases ht
  | hdrBuild => obtain ⟨-, rfl⟩ | ⟨-, -, rfl⟩ := execHdrBuild_cases s t h <;> cases ht

end

/-- Settles O13: a command that is still busy after its step has held, and its end of stream completes it. -/
theorem endOfStreamLiftsEveryHold : Obligations.EndOfStreamLiftsEveryHold := by
  unfold Obligations.EndOfStreamLiftsEveryHold
  intro i s t _ h ht
  obtain ⟨hr, hs, he, hu⟩ := exec_liftedHold ht i h
  exact ⟨hs, hr, he, hu⟩

end Sys2Proof.Machine

/-! The register map (`20_memory.md` rules R61 to R64): each bus register that is a word of a named register, as a view
of that register's value, from which reads, writes and what they leave alone follow. -/

namespace Sys2Proof.Machine

open Sys2Proof Host

/-! ### Accesses outside the spec, and within it (rules R61, R64) -/

theorem busAccessOk_iff (width offset : Nat) : busAccessOk width offset = true ↔ width = 4 ∧ offset % 4 = 0 := by
  simp [busAccessOk, busWidthOk, busOffsetOk]

/-- Settles O59: the two conditions of rule R61 are the test that an access passes. -/
theorem busAccessOutsideSpecIsRefused : Obligations.BusAccessOutsideSpecIsRefused := by
  unfold Obligations.BusAccessOutsideSpecIsRefused
  intro s width offset v
  refine ⟨fun h => ?_, fun h => ⟨⟨_, hostAct_busWrite s offset v h⟩, ⟨_, hostAct_busRead s offset h⟩⟩⟩
  have hno : ¬ busAccessOk width offset = true := by rw [busAccessOk_iff]; omega
  exact ⟨if_neg hno, if_neg hno⟩

/-! ### The map by offset -/

theorem ofOffset_busMap : ∀ p ∈ busMap, BusReg.ofOffset p.1 = p.2 := by decide

theorem ofOffset_reserved (n : Nat) (h : 0x74 ≤ n) : BusReg.ofOffset n = .reserved := by
  obtain ⟨m, rfl⟩ := Nat.exists_eq_add_of_le' h
  rfl

/-! ### The words of a register's value (`10_state.md` rule R26) -/

/-- A read of word `k` returns what was written there. -/
theorem arrayWord_setArrayWord {n : Nat} (a : Bytes n) (k : Nat) (w : Word) (h : 4 * k + 4 ≤ n) :
    arrayWord (setArrayWord a k w) k = w := by
  have hl : (a.toList.take (4 * k)).length = 4 * k := by simp; omega
  have hs : slice (setArrayWord a k w).toList (4 * k) (4 * k + 4) = leBytes 4 w.toNat := by
    rw [setArrayWord, bytesOf_toList _ _ (by simp; omega), slice, List.append_assoc, List.drop_left' hl]
    exact List.take_left' (by simp)
  rw [arrayWord, hs, leWord, le_leBytes _ _ w.isLt, BitVec.ofNat_toNat, BitVec.setWidth_eq]

/-- The other words of the array are as before. -/
theorem arrayWord_setArrayWord_ne {n : Nat} (a : Bytes n) (j k : Nat) (w : Word) (hk : 4 * k + 4 ≤ n) (hne : j ≠ k) :
    arrayWord (setArrayWord a k w) j = arrayWord a j := by
  have hs : slice (setArrayWord a k w).toList (4 * j) (4 * j + 4) = slice a.toList (4 * j) (4 * j + 4) := by
    rw [setArrayWord, bytesOf_toList _ _ (by simp; omega)]
    refine List.ext_getElem? fun i => ?_
    simp only [slice, List.getElem?_take, List.getElem?_drop, List.getElem?_append, List.length_append,
      List.length_take, leBytes_length, Vector.length_toList]
    grind
  rw [arrayWord, arrayWord, hs]

/-- Half `k` of a 64-bit register, with `w` in its place: `_LO` is half 0 and `_HI` half 1. -/
def setHalf (v : BitVec 64) (k : Nat) (w : Word) : BitVec 64 :=
  if k = 0 then v.extractLsb' 32 32 ++ w else w ++ v.extractLsb' 0 32

theorem extractLsb'_setHalf (v : BitVec 64) (k : Nat) (w : Word) (h : k < 2) :
    (setHalf v k w).extractLsb' (32 * k) 32 = w := by
  obtain rfl | rfl : k = 0 ∨ k = 1 := by omega
  · exact BitVec.extractLsb'_append_eq_right
  · exact BitVec.extractLsb'_append_eq_left

theorem extractLsb'_setHalf_ne (v : BitVec 64) (j k : Nat) (w : Word) (hj : j < 2) (hk : k < 2) (hne : j ≠ k) :
    (setHalf v k w).extractLsb' (32 * j) 32 = v.extractLsb' (32 * j) 32 := by
  obtain ⟨rfl, rfl⟩ | ⟨rfl, rfl⟩ : j = 0 ∧ k = 1 ∨ j = 1 ∧ k = 0 := by omega
  · exact BitVec.extractLsb'_append_eq_right
  · exact BitVec.extractLsb'_append_eq_left

/-- A narrower register read back as a word: the bits above its width are 0. -/
theorem setWidth_setWidth_eq_and (w : Word) (m : Nat) :
    (w.setWidth m).setWidth 32 = w &&& BitVec.ofNat 32 (2 ^ m - 1) := by
  refine BitVec.eq_of_getLsbD_eq fun i hi => ?_
  simp only [BitVec.getLsbD_setWidth, BitVec.getLsbD_and, BitVec.getLsbD_ofNat, Nat.testBit_two_pow_sub_one, hi,
    decide_true, Bool.true_and, Bool.and_comm]

/-! ### Registers as sequences of words -/

/-- How many words of the map a named register takes (rule R62). -/
def RegName.words : RegName → Nat
  | .naIp => 4
  | .hCmd => 3
  | .val | .naSvc => 2
  | _ => 1

/-- The offset of a named register's first word (rule R62). -/
def RegName.offset : RegName → Nat
  | .status => 0x04 | .magic => 0x08 | .pver => 0x0C | .tsver => 0x10 | .val => 0x14 | .naTime => 0x1C | .naSvc => 0x20
  | .naIp => 0x28 | .naPort => 0x38 | .hMagic => 0x3C | .hCmd => 0x40 | .hSize => 0x4C | .hCksum => 0x50
  | .cmdLen => 0x54 | .ck => 0x58 | .dlen => 0x5C | .daddr => 0x60

/-- Word `k` of a register's value, zeros above its width (`10_state.md` rule R26). -/
def RegValue.word : RegValue → Nat → Word
  | .status v, _ | .pver v, _ | .tsver v, _ | .naTime v, _ | .hSize v, _ => v
  | .magic v, k | .hMagic v, k | .hCksum v, k | .ck v, k => arrayWord v k
  | .naIp v, k => arrayWord v k
  | .hCmd v, k => arrayWord v k
  | .val v, k | .naSvc v, k => v.extractLsb' (32 * k) 32
  | .naPort v, _ => v.setWidth 32
  | .cmdLen v, _ => v.setWidth 32
  | .dlen v, _ => v.setWidth 32
  | .daddr v, _ => v.setWidth 32

/-- A register's value with `w` as its word `k`, bits above its width dropped. -/
def RegValue.setWord : RegValue → Nat → Word → RegValue
  | .status _, _, w => .status w
  | .magic v, k, w => .magic (setArrayWord v k w)
  | .pver _, _, w => .pver w
  | .tsver _, _, w => .tsver w
  | .val v, k, w => .val (setHalf v k w)
  | .naTime _, _, w => .naTime w
  | .naSvc v, k, w => .naSvc (setHalf v k w)
  | .naIp v, k, w => .naIp (setArrayWord v k w)
  | .naPort _, _, w => .naPort (w.setWidth 16)
  | .hMagic v, k, w => .hMagic (setArrayWord v k w)
  | .hCmd v, k, w => .hCmd (setArrayWord v k w)
  | .hSize _, _, w => .hSize w
  | .hCksum v, k, w => .hCksum (setArrayWord v k w)
  | .cmdLen _, _, w => .cmdLen (w.setWidth 4)
  | .ck v, k, w => .ck (setArrayWord v k w)
  | .dlen _, _, w => .dlen (w.setWidth 26)
  | .daddr _, _, w => .daddr (w.setWidth 25)

@[simp] theorem RegValue.setWord_name (v : RegValue) (k : Nat) (w : Word) : (v.setWord k w).name = v.name := by
  cases v <;> rfl

@[simp] theorem readReg_name (s : State) (n : RegName) : (s.readReg n).name = n := by
  cases n <;> rfl

/-- The other words of the register are as before. -/
theorem RegValue.word_setWord_ne (v : RegValue) (j k : Nat) (w : Word) (hj : j < v.name.words)
    (hk : k < v.name.words) (hne : j ≠ k) : (v.setWord k w).word j = v.word j := by
  cases v
  case naIp a => exact arrayWord_setArrayWord_ne a j k w (by simp [RegValue.name, RegName.words] at hk; omega) hne
  case hCmd a => exact arrayWord_setArrayWord_ne a j k w (by simp [RegValue.name, RegName.words] at hk; omega) hne
  case val x => exact extractLsb'_setHalf_ne x j k w hj hk hne
  case naSvc x => exact extractLsb'_setHalf_ne x j k w hj hk hne
  all_goals exact absurd ((Nat.lt_one_iff.mp hj).trans (Nat.lt_one_iff.mp hk).symm) hne

/-- The named register and the word of it that a bus register is; none for the registers whose accesses do something
else (rules R62, R63). -/
def BusReg.place : BusReg → Option (RegName × Nat)
  | .status => some (.status, 0) | .magic => some (.magic, 0) | .pver => some (.pver, 0) | .tsver => some (.tsver, 0)
  | .valLo => some (.val, 0) | .valHi => some (.val, 1) | .naTime => some (.naTime, 0)
  | .naSvcLo => some (.naSvc, 0) | .naSvcHi => some (.naSvc, 1)
  | .naIp0 => some (.naIp, 0) | .naIp1 => some (.naIp, 1) | .naIp2 => some (.naIp, 2) | .naIp3 => some (.naIp, 3)
  | .naPort => some (.naPort, 0) | .hMagic => some (.hMagic, 0)
  | .hCmd0 => some (.hCmd, 0) | .hCmd1 => some (.hCmd, 1) | .hCmd2 => some (.hCmd, 2)
  | .hSize => some (.hSize, 0) | .hCksum => some (.hCksum, 0) | .cmdLen => some (.cmdLen, 0) | .ck => some (.ck, 0)
  | .dlen => some (.dlen, 0) | .daddr => some (.daddr, 0)
  | .cmd | .ddata | .rxdata | .rxctl | .txdata | .reserved => none

section
variable (r : BusReg) (n : RegName) (k : Nat) (h : r.place = some (n, k))
include h

theorem place_lt_words : k < n.words := by
  cases r <;> cases h <;> decide

/-- Word `k` of a register stands `k` words above its first (rule R62). -/
theorem ofOffset_place : BusReg.ofOffset (n.offset + 4 * k) = r := by
  cases r <;> cases h <;> rfl

/-- A read answers the word. -/
theorem busWord_eq_word (s : State) : s.busWord r = (s.readReg n).word k := by
  cases r <;> cases h <;> rfl

/-- A write, by the idle host, stores the value with that word. -/
theorem busStore_eq_storeReg (s : State) (w : Word) (hb : s.busy = false) :
    s.busStore r w = s.storeReg ((s.readReg n).setWord k w) := by
  cases r
  case status | ck => cases h; rfl
  all_goals cases h <;> exact writeReg_idle s _ hb

/-- What is read of the word that was written: its bits within the register's width. -/
theorem word_setWord (s : State) (w : Word) : ((s.readReg n).setWord k w).word k = w &&& busMask r := by
  cases r <;> cases h
  case magic | hMagic | hCksum | ck | naIp0 | naIp1 | naIp2 | naIp3 | hCmd0 | hCmd1 | hCmd2 =>
    exact (arrayWord_setArrayWord _ _ w (by decide)).trans BitVec.and_allOnes.symm
  case valLo | valHi | naSvcLo | naSvcHi =>
    exact (extractLsb'_setHalf _ _ w (by decide)).trans BitVec.and_allOnes.symm
  case naPort => exact setWidth_setWidth_eq_and w 16
  case cmdLen => exact setWidth_setWidth_eq_and w 4
  case dlen => exact setWidth_setWidth_eq_and w 26
  case daddr => exact setWidth_setWidth_eq_and w 25
  all_goals exact BitVec.and_allOnes.symm

end

/-- Two bus registers are different registers, or different words of one. -/
theorem place_ne {r r' : BusReg} {n n' : RegName} {k k' : Nat} (h : r.place = some (n, k))
    (h' : r'.place = some (n', k')) (hne : r' ≠ r) : n' ≠ n ∨ n' = n ∧ k' ≠ k := by
  by_cases hn : n' = n
  · subst hn
    refine .inr ⟨rfl, fun hk => hne ?_⟩
    rw [← ofOffset_place r _ k h, ← ofOffset_place r' _ k' h', hk]
  · exact .inl hn

/-- The registers that a write stores in are words of named registers other than the read-only two. -/
theorem place_of_mem_busStorage : ∀ r ∈ busStorage, ∃ p ∈ r.place, p.1 ≠ .status ∧ p.1 ≠ .ck := by decide

/-- Another bus register than the one word of a register is of another register. -/
theorem place_ne_of_single {r r' : BusReg} {n n' : RegName} {k k' : Nat} (h : r.place = some (n, k))
    (h' : r'.place = some (n', k')) (hne : r' ≠ r) (hw : n.words = 1) : n' ≠ n := by
  obtain hn | ⟨rfl, hk⟩ := place_ne h h' hne
  · exact hn
  · have := place_lt_words r _ k h
    have := place_lt_words r' _ k' h'
    omega

/-! ### A write of a storage register -/

section
variable {r : BusReg} {n : RegName} {k : Nat} (h : r.place = some (n, k)) (s : State) (w : Word)
include h

/-- The value that a write stores is above DLEN's bound only if the register is DLEN and the word's bits are. -/
theorem setWord_dlen_le (hd : ¬ (r = .dlen ∧ Config.dbufCap < (w &&& busMask r).toNat)) (d : BitVec 26)
    (hv : (s.readReg n).setWord k w = .dlen d) : d.toNat ≤ Config.dbufCap := by
  have hm := word_setWord r n k h s w
  cases r
  case dlen =>
    cases h
    rw [hv] at hm
    have hn : d.toNat = (w &&& busMask .dlen).toNat := by
      rw [← hm]
      exact (BitVec.toNat_setWidth_of_le (by decide)).symm
    exact hn ▸ not_lt.mp fun hc => hd ⟨rfl, hc⟩
  all_goals cases h <;> cases hv

variable (hs : n ≠ .status) (hc : n ≠ .ck)
include hs hc

theorem storeReg_setWord_readReg (hd : ¬ (r = .dlen ∧ Config.dbufCap < (w &&& busMask r).toNat)) :
    (s.storeReg ((s.readReg n).setWord k w)).readReg n = (s.readReg n).setWord k w := by
  have hn : ((s.readReg n).setWord k w).name = n := by simp
  have hr := storeReg_readReg s ((s.readReg n).setWord k w) (by rwa [hn]) (by rwa [hn]) (setWord_dlen_le h s w hd)
  rwa [hn] at hr

variable (hb : s.busy = false)
include hb

theorem busStore_busWord_self : (s.busStore r w).busWord r =
    if r = .dlen ∧ Config.dbufCap < (w &&& busMask r).toNat then s.busWord r else w &&& busMask r := by
  rw [busStore_eq_storeReg r n k h s w hb]
  split
  · next hd =>
    obtain ⟨rfl, hd⟩ := hd
    cases h
    rw [← word_setWord .dlen .dlen 0 rfl s w] at hd
    have hd' : Config.dbufCap < (w.setWidth 26).toNat := hd.trans_eq (BitVec.toNat_setWidth_of_le (by decide))
    exact congrArg (State.busWord · .dlen) (storeReg_ignored s (.dlen (w.setWidth 26)) (.inr (.inr ⟨_, rfl, hd'⟩)))
  · next hd =>
    rw [busWord_eq_word r n k h, storeReg_setWord_readReg h s w hs hc hd, word_setWord r n k h]

/-- A write of one word leaves every other word of the named registers. -/
theorem busStore_busWord_place_ne {r' : BusReg} {n' : RegName} {k' : Nat} (h' : r'.place = some (n', k'))
    (hne : r' ≠ r) : (s.busStore r w).busWord r' = s.busWord r' := by
  rw [busStore_eq_storeReg r n k h s w hb, busWord_eq_word r' n' k' h', busWord_eq_word r' n' k' h']
  obtain hn | ⟨rfl, hk⟩ := place_ne h h' hne
  · rw [storeReg_readReg_ne _ _ _ (by simpa using hn)]
  · have hd : r ≠ .dlen := by
      rintro rfl
      cases h
      exact place_ne_of_single (r := .dlen) rfl h' hne rfl rfl
    rw [storeReg_setWord_readReg h s w hs hc fun hx => hd hx.1]
    exact RegValue.word_setWord_ne _ _ _ _ (by simpa using place_lt_words r' _ k' h')
      (by simpa using place_lt_words r _ k h) hk

end

/-- What is no word of a named register depends on none of them, but DDATA on DADDR. -/
theorem busWord_withHostRegs (s t : State) (r : BusReg) (h : r.place = none)
    (ha : r = .ddata → t.daddr = s.daddr) : (s.withHostRegs t).busWord r = s.busWord r := by
  cases r
  case ddata =>
    have hd : (s.withHostRegs t).daddr = s.daddr := ha rfl
    simp only [State.busWord, dDataByte, hd]
    rfl
  case cmd | rxdata | rxctl | txdata | reserved => rfl
  all_goals cases h

section
variable {s : State} {r : BusReg} (w : Word) (hb : s.busy = false) (hr : r ∈ busStorage)
include hb hr

theorem busStore_withHostRegs : s.withHostRegs (s.busStore r w) = s.busStore r w := by
  obtain ⟨⟨n, k⟩, h, -⟩ := place_of_mem_busStorage r hr
  rw [busStore_eq_storeReg r n k h s w hb]
  exact storeReg_withHostRegs s _

/-- DADDR moves by a write of DADDR alone. -/
theorem busStore_daddr_ne (ha : r ≠ .daddr) : (s.busStore r w).daddr = s.daddr := by
  obtain ⟨⟨n, k⟩, h, -⟩ := place_of_mem_busStorage r hr
  have hn : n ≠ .daddr := place_ne_of_single (r := .daddr) rfl h ha rfl
  have hd := storeReg_readReg_ne s ((s.readReg n).setWord k w) .daddr (by simpa using hn.symm)
  rw [busStore_eq_storeReg r n k h s w hb]
  exact RegValue.daddr.inj hd

/-- A write of a storage register moves no other word, but DDATA by a write of DADDR. -/
theorem busStore_busWord_ne (r' : BusReg) (hne : r' ≠ r) (ha : ¬ (r = .daddr ∧ r' = .ddata)) :
    (s.busStore r w).busWord r' = s.busWord r' := by
  obtain ⟨⟨n, k⟩, h, hs, hc⟩ := place_of_mem_busStorage r hr
  cases h' : r'.place with
  | some p => exact busStore_busWord_place_ne h s w hs hc hb h' hne
  | none =>
    rw [← busStore_withHostRegs w hb hr]
    exact busWord_withHostRegs s _ r' h' fun hd => busStore_daddr_ne w hb hr fun hx => ha ⟨hx, hd⟩

end

/-! ### Reads and their side effects (rule R63) -/

theorem busReadEffect_hostData (s : State) (r : BusReg) : (s.busReadEffect r).hostData = s.hostData := by
  obtain h | h | h | h := busReadEffect_cases s r <;> rw [h] <;> rfl

/-- Only DDATA, TXDATA and RXDATA have a read with an effect. -/
theorem busReadEffect_none (s : State) (r : BusReg) (hd : r ≠ .ddata) (ht : r ≠ .txdata) (hx : r ≠ .rxdata) :
    s.busReadEffect r = s := by
  cases r
  case ddata => exact absurd rfl hd
  case txdata => exact absurd rfl ht
  case rxdata => exact absurd rfl hx
  all_goals rfl

/-- Settles O57: the map by offset, and each storage register as a word of a named register. -/
theorem registerMapReadsBackWrites : Obligations.RegisterMapReadsBackWrites := by
  unfold Obligations.RegisterMapReadsBackWrites
  refine ⟨ofOffset_busMap, ofOffset_reserved, fun s n w hn => ?_, fun s r w hb hr => ⟨?_, ?_, ?_⟩, fun s r w hr => ?_,
    fun s r hr => ?_, fun _ => ⟨_, rfl⟩, fun s r hd ht => ⟨?_, busReadEffect_none s r hd ht⟩⟩
  · refine ⟨hostAct_busWrite s n w hn, _, hostAct_busRead s n hn, rfl, ?_⟩
    rw [← busReadEffect_hostData s (.ofOffset n)]
    rfl
  · obtain ⟨⟨n, k⟩, h, hs, hc⟩ := place_of_mem_busStorage r hr
    exact busStore_busWord_self h s w hs hc hb
  · exact busStore_busWord_ne w hb hr
  · exact busStore_withHostRegs w hb hr
  · simp only [List.mem_cons, List.not_mem_nil, or_false] at hr
    obtain rfl | rfl | rfl | rfl := hr <;> rfl
  · simp only [List.mem_cons, List.not_mem_nil, or_false] at hr
    obtain rfl | rfl := hr <;> rfl
  · by_cases hx : r = .rxdata
    · rw [hx]; rfl
    · rw [busReadEffect_none s r hd ht hx]

/-! ### What a read without effect answers -/

/-- The part of the map that is read without effect (rule R63). -/
def quietMap : List (Nat × BusReg) := busMap.filter fun p => p.2 ∉ [.ddata, .rxdata, .txdata]

theorem quietMap_offset : ∀ p ∈ quietMap, p.1 % 4 = 0 := by decide

/-- The words by offset are what the bus reads, register by register. -/
theorem mapWords_eq (s : State) : mapWords s = quietMap.map fun p => (p.1, s.busWord p.2) := by
  have hx : (BitVec.ofBool s.rxEof).setWidth 32 = if s.rxEof then 1 else 0 := by cases s.rxEof <;> rfl
  simp [mapWords, quietMap, busMap, State.busWord, arrayWord_eq_wordOfBytes, hx]

/-- Settles O58: each word of the map is the answer of a read without effect. -/
theorem busWordsAreTheRegisters : Obligations.BusWordsAreTheRegisters := by
  unfold Obligations.BusWordsAreTheRegisters
  intro s p hp
  rw [mapWords_eq] at hp
  obtain ⟨⟨n, r⟩, hq, rfl⟩ := List.mem_map.mp hp
  obtain ⟨hm, hr⟩ := List.mem_filter.mp hq
  obtain ⟨hd, hx, ht⟩ : r ≠ .ddata ∧ r ≠ .rxdata ∧ r ≠ .txdata := by simpa using hr
  have ho : BusReg.ofOffset n = r := ofOffset_busMap _ hm
  rw [hostAct_busRead s n (quietMap_offset _ hq), ho, State.busRead, busReadEffect_none s r hd ht hx]

end Sys2Proof.Machine

/-! Command words (`30_encoding.md` rules R75 to R79): what the decoder can answer, the encoder as its inverse, and what
an illegal word does. -/

namespace Sys2Proof

/-- The command word of a byte's fields is that byte (rule R75). -/
theorem CmdWord.toByte_ofByte (b : Byte) : (CmdWord.ofByte b).toByte = b := by
  refine BitVec.eq_of_getLsbD_eq fun i hi => ?_
  simp only [CmdWord.toByte, CmdWord.ofByte, BitVec.getLsbD_append, BitVec.getLsbD_ofBool, BitVec.getLsbD_extractLsb']
  rcases i with _ | i
  · simp
  · by_cases h : i < 3
    · simp [h, Nat.add_comm]
    · have h4 : i - 3 < 4 := by omega
      have hp : 4 + (i - 3) = i + 1 := by omega
      simp [h, h4, hp]

/-- OP = 0xF alone names no operation (rule R78). -/
theorem Instr.ofOp_eq_none_iff (op : BitVec 4) (t : Bool) : Instr.ofOp op t = none ↔ op = 0xF := by
  revert op t
  decide

theorem Instr.fields_of_ofOp (op : BitVec 4) (t : Bool) :
    CmdWord.flagAllowed ⟨op, 0, t⟩ = true → ∀ i ∈ Instr.ofOp op t, i.fields = ⟨op, 0, t⟩ := by
  revert op t
  decide

/-- The operation of a word is assigned when its OP names a command (rules R77, R78). -/
theorem CmdWord.opAssigned_eq (w : CmdWord) : w.opAssigned = (Instr.ofOp w.op w.t).isSome := by
  rw [Bool.eq_iff_iff, Option.isSome_iff_ne_none, ne_eq, Instr.ofOp_eq_none_iff]
  simp [CmdWord.opAssigned]

/-- The command that a word's OP and T name has the fields of the word, if RSV and T are as a legal word has them (rules
R77, R78). -/
theorem CmdWord.fields_ofOp (w : CmdWord) (i : Instr) (hi : Instr.ofOp w.op w.t = some i)
    (hr : w.reservedZero = true) (hf : w.flagAllowed = true) : i.fields = w := by
  obtain ⟨op, rsv, t⟩ := w
  obtain rfl : rsv = 0 := by simpa [CmdWord.reservedZero] using hr
  exact Instr.fields_of_ofOp op t hf i hi

/-- What the decoder can answer: the command of a word that passes the three checks, or a rejection of one that does
not (rule R78). -/
theorem decode_cases (b : Byte) :
    ((CmdWord.ofByte b).legal = true ∧ ∃ i, decode b = .ok i ∧ i.fields = CmdWord.ofByte b) ∨
    ((CmdWord.ofByte b).legal = false ∧ ∃ e, decode b = .error e) := by
  rw [decode]
  generalize CmdWord.ofByte b = w
  rw [CmdWord.legal, CmdWord.opAssigned_eq]
  cases hi : Instr.ofOp w.op w.t with
  | none => exact .inr ⟨rfl, _, rfl⟩
  | some i =>
    cases hr : w.reservedZero with
    | false => exact .inr ⟨rfl, _, rfl⟩
    | true =>
      cases hf : w.flagAllowed with
      | false => exact .inr ⟨rfl, _, rfl⟩
      | true => exact .inl ⟨rfl, i, rfl, w.fields_ofOp i hi hr hf⟩

end Sys2Proof

namespace Sys2Proof.Machine

open Sys2Proof Host

/-! ### Decode and encode -/

/-- The word of a command that a word decodes to is that word (rules R77, R79). -/
theorem encode_of_decode (b : Byte) (i : Instr) (h : decode b = .ok i) : encode i = b := by
  obtain ⟨-, j, hj, hf⟩ | ⟨-, e, he⟩ := decode_cases b
  · obtain rfl : j = i := Except.ok.inj (hj.symm.trans h)
    rw [encode, hf, CmdWord.toByte_ofByte]
  · exact absurd (he.symm.trans h) nofun

/-- A row of one byte is read as that byte. -/
theorem decodeTableWord_byte (b : Byte) (i : Instr) (h : decode b = .ok i) : decodeTableWord 8 b.toNat = some i := by
  have hb : wordBytes (max 1 (8 / 8)) b.toNat = [b] := by simp [wordBytes]
  rw [decodeTableWord, hb, decodeBytes, h]

/-- Settles O4: the two directions by the decoder's answers, and a table row as its one byte. -/
theorem decodeAndEncodeAgree : Obligations.DecodeAndEncodeAgree := by
  unfold Obligations.DecodeAndEncodeAgree
  exact ⟨decode_encode, encode_of_decode, fun i => decodeTableWord_byte _ i (decode_encode i)⟩

/-- Settles O3: each word of the map is the encoding of its command. -/
theorem operationMapDecodes : Obligations.OperationMapDecodes := by
  unfold Obligations.OperationMapDecodes
  exact ⟨decode_encode .nop, decode_encode .varintEnc, decode_encode .varintDec, decode_encode .varstrEnc,
    decode_encode .varstrDec, decode_encode (.netaddrEnc false), decode_encode (.netaddrEnc true),
    decode_encode (.netaddrDec false), decode_encode (.netaddrDec true), decode_encode .cksumGen,
    decode_encode .cksumVfy, decode_encode .hdrBuild, decode_encode .hdrEnc, decode_encode .hdrDec,
    decode_encode .bodyRd, decode_encode .bodyWr, decode_encode .clrerr⟩

/-! ### The legal words and the illegal ones (rule R78) -/

/-- The commands, with T clear and set where a word may have it set (rules R76, R77). -/
def commands : List Instr :=
  [.nop, .varintEnc, .varintDec, .varstrEnc, .varstrDec, .netaddrEnc false, .netaddrEnc true, .netaddrDec false,
    .netaddrDec true, .cksumGen, .cksumVfy, .hdrBuild, .hdrEnc, .hdrDec, .bodyRd, .bodyWr, .clrerr]

theorem mem_commands (i : Instr) : i ∈ commands := by
  cases i
  case netaddrEnc t => cases t <;> decide
  case netaddrDec t => cases t <;> decide
  all_goals decide

/-- The words that decode are the words of the commands. -/
theorem decode_ok_iff (b : Byte) : (∃ i, decode b = .ok i) ↔ b ∈ commands.map encode := by
  rw [List.mem_map]
  constructor
  · rintro ⟨i, hi⟩
    exact ⟨i, mem_commands i, encode_of_decode b i hi⟩
  · rintro ⟨i, -, rfl⟩
    exact ⟨i, decode_encode i⟩

/-- A word is rejected when it fails one of the three checks. -/
theorem decode_error_iff (b : Byte) : (∃ e, decode b = .error e) ↔ (CmdWord.ofByte b).legal = false := by
  obtain ⟨hl, i, hi, -⟩ | ⟨hl, he⟩ := decode_cases b
  · simp [hl, hi]
  · simp [hl, he]

theorem legal_eq_false_iff (w : CmdWord) : w.legal = false ↔
    w.op = 0xF ∨ w.rsv ≠ 0 ∨ (w.t = true ∧ w.op ≠ 0x5 ∧ w.op ≠ 0x6) := by
  rw [CmdWord.legal, CmdWord.opAssigned, CmdWord.reservedZero, CmdWord.flagAllowed]
  simp only [Bool.and_eq_false_iff, Bool.or_eq_false_iff, bne_eq_false_iff_eq, beq_eq_false_iff_ne, Bool.not_eq_false']
  tauto

theorem engineAct_illegal (s : State) (e : Reject) (hb : s.busy = true) (hd : decode s.cmdl = .error e) :
    engineAct s = .next (s.complete .cmdIllegal) := by
  rw [engineAct, if_pos hb, hd]
  rfl

/-- An illegal word that the idle block is given: ERR, ESTICKY and the latched word are all that changes. -/
theorem issue_complete_illegal (s : State) (w : Word) (hb : s.busy = false) :
    (s.issue w).complete .cmdIllegal = { s with cmdl := w.setWidth 8, err := 0xF1, esticky := true } := by
  rw [issue_idle s w hb, State.complete]
  simp [hb, ErrCode.code, ErrCode.setsSticky]

/-- Settles O1: the legal words by the decoder's answers, and an illegal one by its issue and completion. -/
theorem seventeenWordsAreLegal : Obligations.SeventeenWordsAreLegal := by
  unfold Obligations.SeventeenWordsAreLegal
  refine ⟨decode_ok_iff, fun b => (decode_error_iff b).trans (legal_eq_false_iff _),
    fun s w e hb hd => ?_⟩
  have hi := issue_idle s w hb
  refine ⟨by rw [hi], by rw [hi], ?_⟩
  rw [engineAct_illegal _ e (by rw [hi]) (by rwa [hi]), issue_complete_illegal s w hb]

end Sys2Proof.Machine

/-! Longer forms of a varint (`40_varint.md` rule R102): the decoder by its first byte, and a tail whose value a shorter
form has. -/

namespace Sys2Proof.Machine

open Sys2Proof Host

/-- The tail of a form whose value is below the form's own range (`40_varint.md` rule R102). -/
theorem varintTail_noncanonical (n lo v : Nat) (t : List Byte) (hv : v < lo) (hlo : lo ≤ 256 ^ n) :
    varintTail n lo (leBytes n v ++ t) = .err .protoNoncanonicalVarint (n + 1) := by
  have hl : ¬ (leBytes n v ++ t).length < n := by simp
  have ht : (leBytes n v ++ t).take n = leBytes n v := List.take_left' (leBytes_length n v)
  rw [varintTail, if_neg hl, ht, le_leBytes n v (hv.trans_le hlo), if_pos hv]

section
variable (rest : List Byte)

theorem varintDecode_fd : varintDecode (0xFD :: rest) = varintTail 2 0xFD rest := rfl
theorem varintDecode_fe : varintDecode (0xFE :: rest) = varintTail 4 0x10000 rest := rfl
theorem varintDecode_ff : varintDecode (0xFF :: rest) = varintTail 8 0x100000000 rest := rfl

end

/-- Settles O23: each longer form is its first byte and a tail that holds a value below the form's range. -/
theorem longerFormsAreRejected : Obligations.LongerFormsAreRejected := by
  unfold Obligations.LongerFormsAreRejected
  refine fun v t => ⟨fun h => ?_, fun h => ?_, fun h => ?_⟩
  · rw [List.cons_append, varintDecode_fd, varintTail_noncanonical 2 _ v t h (by decide)]
  · rw [List.cons_append, varintDecode_fe, varintTail_noncanonical 4 _ v t h (by decide)]
  · rw [List.cons_append, varintDecode_ff, varintTail_noncanonical 8 _ v t h (by decide)]

end Sys2Proof.Machine

/-! A whole message (`30_encoding.md` rules R87, R93): how a host sequence goes on after a command that ends without
error, what HDR.DEC, BODY.RD and CKSUM.VFY do with a message at the front of RX, and the two sequences chained. -/

namespace Sys2Proof.Machine

open Sys2Proof Host

/-! ### Host sequences -/

/-- The state in which the engine completes the command `i`, just issued. -/
def State.issued (s : State) (i : Instr) : State := { s with cmdl := encode i, busy := true }

@[simp] theorem State.issued_cmdl (s : State) (i : Instr) : (s.issued i).cmdl = encode i := rfl

theorem issueAndComplete_idle (i : Instr) (s : State) (hb : s.busy = false) :
    issueAndComplete i s = exec i (s.issued i) := by
  have hw : ((encode i).setWidth 32).setWidth 8 = encode i := by simp
  have hi : s.issue ((encode i).setWidth 32) = s.issued i := by rw [issue_idle s _ hb, hw, State.issued]
  have hd : decode (s.issued i).cmdl = .ok i := by rw [State.issued_cmdl, decode_encode]
  rw [issueAndComplete, hi, engineAct_latched _ i rfl hd]

/-- A sequence goes on behind a command that ends with OK (rule R93). -/
theorem runUntilError_cons_ok (i : Instr) (is : List Instr) (s t : State) (hb : s.busy = false)
    (h : exec i (s.issued i) = .next (t.complete .ok)) :
    runUntilError (i :: is) s = runUntilError is (t.complete .ok) := by
  rw [runUntilError, issueAndComplete_idle i s hb, h]
  rfl

/-- The three commands of a sequence all end with OK. -/
theorem runUntilError_three_ok (i j k : Instr) (s t u v : State) (hb : s.busy = false)
    (hi : exec i (s.issued i) = .next (t.complete .ok))
    (hj : exec j ((t.complete .ok).issued j) = .next (u.complete .ok))
    (hk : exec k ((u.complete .ok).issued k) = .next (v.complete .ok)) :
    runUntilError [i, j, k] s = .next (v.complete .ok) := by
  rw [runUntilError_cons_ok i _ s t hb hi, runUntilError_cons_ok j _ _ u rfl hj, runUntilError_cons_ok k _ _ v rfl hk,
    runUntilError]

/-! ### The layout of a message -/

/-- A slice of a sequence laid out as three parts is the middle one. -/
theorem slice_middle (p m r : List Byte) (i j : Nat) (hi : p.length = i) (hj : i + m.length = j) :
    slice (p ++ (m ++ r)) i j = m := by
  rw [slice, List.drop_left' hi, List.take_left' (by omega)]

theorem leWord_leBytes (w : Word) : leWord (leBytes 4 w.toNat) = w := by
  rw [leWord, le_leBytes _ _ w.isLt, BitVec.ofNat_toNat, BitVec.setWidth_eq]

theorem headerBytes_length (h : Header) : (headerBytes h).length = Config.hdrLen := by
  simp [headerBytes]

/-- The header at the front of a sequence is the one laid out there (`44_header.md` rules R170, R175). -/
theorem headerOf_headerBytes (h : Header) (r : List Byte) : headerOf (headerBytes h ++ r) = h := by
  have hm : slice (headerBytes h ++ r) 0 4 = h.magic.toList := by
    simpa [headerBytes] using slice_middle [] h.magic.toList _ 0 4 rfl (by simp)
  have hc : slice (headerBytes h ++ r) 4 16 = h.cmd.toList := by
    simpa [headerBytes] using slice_middle h.magic.toList h.cmd.toList _ 4 16 (by simp) (by simp)
  have hs : slice (headerBytes h ++ r) 16 20 = leBytes 4 h.size.toNat := by
    simpa [headerBytes] using
      slice_middle (h.magic.toList ++ h.cmd.toList) (leBytes 4 h.size.toNat) _ 16 20 (by simp) (by simp)
  have hk : slice (headerBytes h ++ r) 20 24 = h.cksum.toList := by
    simpa [headerBytes] using
      slice_middle (h.magic.toList ++ h.cmd.toList ++ leBytes 4 h.size.toNat) h.cksum.toList _ 20 24 (by simp) (by simp)
  rw [headerOf, hm, hc, hs, hk, leWord_leBytes]
  simp

/-! ### The command field that HDR.BUILD makes -/

/-- Stripping the zeros of a padded sequence strips the padding (`44_header.md` rule R176). -/
theorem stripZeros_append_zeros (c : List Byte) (n : Nat) : stripZeros (c ++ List.replicate n 0) = stripZeros c := by
  rw [stripZeros, List.reverse_append, List.reverse_replicate, List.dropWhile_append_of_pos, stripZeros]
  simp

theorem stripZeros_padCmd (cmd : Bytes 12) (n : Nat) :
    stripZeros (padCmd cmd n).toList = stripZeros (cmd.toList.take n) := by
  have ht : (cmd.toList.take n).take 12 = cmd.toList.take n := List.take_of_length_le (by simp)
  rw [padCmd, bytesOf_eq, ht, stripZeros_append_zeros]

/-- The validations pass a header with the configured magic and a command that is valid text (rule R181). -/
theorem headerError_none (magic : Bytes 4) (h : Header) (hm : h.magic = magic)
    (hv : validText (stripZeros h.cmd.toList) = true) : headerError magic h = none := by
  simp [headerError, hm, hv]

/-! ### The commands of the receiver -/

/-- HDR.DEC of a laid-out header that it accepts (`44_header.md` rules R181, R185). -/
theorem execHdrDec_headerBytes (s : State) (h : Header) (r : List Byte) (hq : s.rxq = headerBytes h ++ r)
    (hz : h.size.toNat ≤ Config.maxPayload) (hv : headerError s.magic h = none) :
    execHdrDec s = .next ((((s.rxTake Config.hdrLen).latch h).setDrainshort false).complete .ok) := by
  have hh : headerOf s.rxq = h := by rw [hq, headerOf_headerBytes]
  have hl : ¬ s.rxq.length < Config.hdrLen := by rw [hq, List.length_append, headerBytes_length]; omega
  rw [execHdrDec_accepts s hl (by rwa [hh, Nat.not_lt]) (by rwa [hh]), hh]

/-- BODY.RD of a body that is there (`45_body_system.md` rule R196). -/
theorem execBodyRd_body (s : State) (b r : List Byte) (hq : s.rxq = b ++ r) (hl : s.hSize.toNat = b.length)
    (hz : b.length ≤ Config.maxPayload) :
    execBodyRd s = .next (((s.rxTake b.length).bodyStored b).complete .ok) := by
  have hg : getBytes s.rxq s.hSize.toNat = .ok b b.length := by
    rw [getBytes, hl, hq, if_pos (by simp), List.take_left]
  rw [execBodyRd_reads s (by rwa [hl, Nat.not_lt]), hg, completeRead, finish_eq]

theorem State.bodyStored_dlen_toNat (s : State) (b : List Byte) (hz : b.length ≤ Config.dbufCap) :
    (s.bodyStored b).dlen.toNat = b.length := by
  have hb : b.length ≤ 33554432 := hz
  rw [State.bodyStored_dlen, BitVec.toNat_ofNat, Nat.mod_eq_of_lt (by omega)]

/-- CKSUM.VFY of a body whose checksum is in H_CKSUM (`43_checksum.md` rule R149). -/
theorem execCksumVfy_matches (s : State) (b : List Byte) (hz : b.length ≤ Config.dbufCap)
    (hd : s.dlen.toNat = b.length) (hm : s.memRead 0 b.length = b) (hk : s.hCksum = checksum b) :
    execCksumVfy s = .next ((s.setCk s.hCksum).complete .ok) := by
  rw [execCksumVfy_eq s (hd.trans_le hz), hd, hm, if_pos hk.symm, hk]

/-- CKSUM.VFY behind a command that stored that body. -/
theorem execCksumVfy_bodyStored (s : State) (b : List Byte) (hz : b.length ≤ Config.dbufCap)
    (hk : s.hCksum = checksum b) : execCksumVfy (((s.bodyStored b).complete .ok).issued .cksumVfy) =
      .next (((((s.bodyStored b).complete .ok).issued .cksumVfy).setCk s.hCksum).complete .ok) :=
  execCksumVfy_matches _ b hz (s.bodyStored_dlen_toNat b hz) (s.memRead_memWrite 0 b) hk

/-! ### The two sequences -/

/-- The valid content of DBUF. -/
def State.payload (s : State) : List Byte := s.memRead 0 s.dlen.toNat

theorem State.payload_length (s : State) : s.payload.length = s.dlen.toNat := State.memRead_length _ _ _

/-- The message that MSG.SEND makes of the state (rule R87). -/
def State.message (s : State) : List Byte := headerBytes (s.builtHeader s.payload) ++ s.payload

/-- The payload's length in the header is DLEN (`44_header.md` rule R171). -/
theorem State.builtHeader_size_toNat (s : State) (b : List Byte) : (s.builtHeader b).size.toNat = s.dlen.toNat :=
  BitVec.toNat_setWidth_of_le (by decide)

/-- What MSG.SEND leaves: the message behind what TX held, and its header in the registers. -/
structure MessageSent (s t : State) : Prop where
  err : t.err = 0x00
  busy : t.busy = false
  txq : t.txq = s.txq ++ s.message
  header : t.header = s.builtHeader s.payload

theorem runUntilError_msgSend (s : State) (hb : s.busy = false) (hc : s.cmdLen.toNat ≤ Config.cmdLenMax)
    (hd : s.dlen.toNat ≤ Config.dbufCap) : ∃ t, runUntilError msgSend s = .next t ∧ MessageSent s t :=
  ⟨_, runUntilError_three_ok .hdrBuild .hdrEnc .bodyWr s _ _ _ hb
    (execHdrBuild_eq (s.issued .hdrBuild) hd hc) rfl (execBodyWr_eq _ hd), rfl, rfl, List.append_assoc _ _ _, rfl⟩

/-- What MSG.RECV leaves of a message with header `h` and payload `b`, when `r` was behind it. -/
structure MessageReceived (h : Header) (b r : List Byte) (u t : State) : Prop where
  err : t.err = 0x00
  busy : t.busy = false
  esticky : t.esticky = u.esticky
  rxq : t.rxq = r
  dlen : t.dlen = BitVec.ofNat 26 b.length
  body : ∀ a, a < b.length → b[a]? = some (t.dbufByte a)
  header : t.header = h
  ck : t.ck = t.hCksum

theorem runUntilError_msgRecv (u : State) (h : Header) (b r : List Byte) (hb : u.busy = false)
    (hq : u.rxq = headerBytes h ++ (b ++ r)) (hv : headerError u.magic h = none) (hl : h.size.toNat = b.length)
    (hz : b.length ≤ Config.maxPayload) (hk : h.cksum = checksum b) :
    ∃ t, runUntilError msgRecv u = .next t ∧ MessageReceived h b r u t := by
  have hq1 : u.rxq.drop Config.hdrLen = b ++ r := by rw [hq, List.drop_left' (headerBytes_length h)]
  have hq2 : (u.rxq.drop Config.hdrLen).drop b.length = r := by rw [hq1, List.drop_left]
  refine ⟨_, runUntilError_three_ok .hdrDec .bodyRd .cksumVfy u _ _ _ hb
    (execHdrDec_headerBytes (u.issued .hdrDec) h (b ++ r) hq (hl.trans_le hz) hv)
    (execBodyRd_body _ b r hq1 hl hz) (execCksumVfy_bodyStored _ b hz hk), ?_⟩
  have hsticky : (((u.esticky || false) || false) || false) = u.esticky := by simp
  exact ⟨rfl, rfl, hsticky, hq2, rfl, State.bodyStored_dbufByte _ b, rfl, rfl⟩

/-- Settles O60: the sender's message is laid out at the front of the receiver's RX, and passes its validations. -/
theorem messageSentIsMessageReceived : Obligations.MessageSentIsMessageReceived := by
  unfold Obligations.MessageSentIsMessageReceived
  intro s hb hc hd hv
  obtain ⟨s', hs, sent⟩ := runUntilError_msgSend s hb hc hd
  have hlen : s.message.length = 24 + s.dlen.toNat := by
    rw [State.message, List.length_append, headerBytes_length, State.payload_length]
  refine ⟨s', s.message, hs, sent.err, sent.busy, sent.txq, hlen, fun u r hu hm hq => ?_⟩
  have hvalid : headerError u.magic (s.builtHeader s.payload) = none :=
    headerError_none _ _ hm.symm (by rwa [← stripZeros_padCmd] at hv)
  have hsize := (s.builtHeader_size_toNat s.payload).trans s.payload_length.symm
  obtain ⟨t, ht, got⟩ := runUntilError_msgRecv u (s.builtHeader s.payload) s.payload r hu
    (by rw [hq, State.message, List.append_assoc]) hvalid hsize (s.payload_length.trans_le hd) rfl
  have hbody : ∀ a, a < s.dlen.toNat → t.dbufByte a = s.dbufByte a := fun a ha =>
    Option.some.inj ((got.body a (ha.trans_eq s.payload_length.symm)).symm.trans (s.memRead_getElem? _ a ha))
  have hheader : t.header = s'.header := got.header.trans sent.header.symm
  refine ⟨t, ht, got.err, got.busy, got.esticky, got.rxq, ?_, hbody, congrArg Header.magic got.header,
    congrArg Header.cmd hheader, congrArg Header.size hheader, congrArg Header.cksum hheader, got.ck⟩
  rw [got.dlen, s.payload_length, BitVec.ofNat_toNat, BitVec.setWidth_eq]

end Sys2Proof.Machine

/-! Varints (`40_varint.md`): the encoder by its four forms, the decoder as the encoder's inverse in both directions,
and the two commands. -/

namespace Sys2Proof.Machine

open Sys2Proof Host

/-! ### The four forms (rule R100) -/

section
variable (v : Nat)

theorem varintEncode_one (h : v < 0xFD) : varintEncode v = [BitVec.ofNat 8 v] := if_pos h

theorem varintEncode_fd (hl : 0xFD ≤ v) (h : v ≤ 0xFFFF) : varintEncode v = 0xFD :: leBytes 2 v := by
  rw [varintEncode, if_neg (by omega), if_pos h]

theorem varintEncode_fe (hl : 0x10000 ≤ v) (h : v ≤ 0xFFFFFFFF) : varintEncode v = 0xFE :: leBytes 4 v := by
  rw [varintEncode, if_neg (by omega), if_neg (by omega), if_pos h]

theorem varintEncode_ff (hl : 0x100000000 ≤ v) : varintEncode v = 0xFF :: leBytes 8 v := by
  rw [varintEncode, if_neg (by omega), if_neg (by omega), if_neg (by omega)]

end

/-- Settles O20: the encoder by its forms, each with the length of its tail and one byte before it. -/
theorem varintForms : Obligations.VarintForms := by
  unfold Obligations.VarintForms
  intro v _
  refine ⟨fun h => ?_, fun hl h => ?_, fun hl h => ?_, fun hl => ?_⟩
  · rw [varintEncode_one v h]; exact ⟨rfl, rfl⟩
  · rw [varintEncode_fd v hl h]; exact ⟨rfl, rfl⟩
  · rw [varintEncode_fe v hl h]; exact ⟨rfl, rfl⟩
  · rw [varintEncode_ff v hl]; exact ⟨rfl, rfl⟩

/-! ### The decoder undoes the encoder, and the other way round (rules R107, R108) -/

/-- A tail that holds a value of its form's range decodes to it. -/
theorem varintTail_leBytes (n lo v : Nat) (t : List Byte) (hl : lo ≤ v) (hv : v < 256 ^ n) :
    varintTail n lo (leBytes n v ++ t) = .ok v (n + 1) := by
  have ht : (leBytes n v ++ t).take n = leBytes n v := List.take_left' (leBytes_length n v)
  rw [varintTail, if_neg (by simp), ht, le_leBytes n v hv, if_neg (Nat.not_lt.mpr hl)]

/-- What a long form's tail holds when it decodes. -/
theorem varintTail_ok (n lo v k : Nat) (rest : List Byte) (h : varintTail n lo rest = .ok v k) :
    k = n + 1 ∧ lo ≤ v ∧ v < 256 ^ n ∧ rest.take n = leBytes n v := by
  obtain ⟨-, h'⟩ | ⟨-, -, h'⟩ | ⟨hn, hlo, h'⟩ := varintTail_cases n lo rest
  · rw [h'] at h; cases h
  · rw [h'] at h; cases h
  · rw [h'] at h
    obtain ⟨rfl, rfl⟩ : le (rest.take n) = v ∧ n + 1 = k := by simpa using h
    have hlen : (rest.take n).length = n := List.length_take_of_le hn
    have hlt := le_lt (rest.take n)
    have heq := leBytes_le (rest.take n)
    rw [hlen] at hlt heq
    exact ⟨rfl, hlo, hlt, heq.symm⟩

theorem varintDecode_lt (d : Byte) (rest : List Byte) (h : d.toNat < 0xFD) :
    varintDecode (d :: rest) = .ok d.toNat 1 := if_pos h

/-- A first byte stands for itself or is one of the three that announce a tail (rule R110). -/
theorem varintFirstByte_cases (d : Byte) : d.toNat < 0xFD ∨ d = 0xFD ∨ d = 0xFE ∨ d = 0xFF := by
  bv_omega

/-- The decoder undoes the encoder, whatever bytes follow (rule R107). -/
theorem varintDecode_varintEncode (v : Nat) (t : List Byte) (hv : v < 2 ^ 64) :
    varintDecode (varintEncode v ++ t) = .ok v (varintEncode v).length := by
  obtain h | ⟨hl, h⟩ | ⟨hl, h⟩ | hl : v < 0xFD ∨ (0xFD ≤ v ∧ v ≤ 0xFFFF) ∨ (0x10000 ≤ v ∧ v ≤ 0xFFFFFFFF) ∨
      0x100000000 ≤ v := by omega
  · have hd : (BitVec.ofNat 8 v).toNat = v := Nat.mod_eq_of_lt (by omega)
    rw [varintEncode_one v h, List.singleton_append, varintDecode_lt _ t (by rwa [hd]), hd]
    rfl
  · rw [varintEncode_fd v hl h, List.cons_append, varintDecode_fd, varintTail_leBytes 2 _ v t hl (by omega)]
    rfl
  · rw [varintEncode_fe v hl h, List.cons_append, varintDecode_fe, varintTail_leBytes 4 _ v t hl (by omega)]
    rfl
  · rw [varintEncode_ff v hl, List.cons_append, varintDecode_ff, varintTail_leBytes 8 _ v t hl (by omega)]
    rfl

/-- The bytes that the decoder takes are the encoding of the value that it gives. -/
theorem take_of_varintDecode_ok (s : List Byte) (v n : Nat) (h : varintDecode s = .ok v n) :
    s.take n = varintEncode v := by
  cases s with
  | nil => cases h
  | cons d rest =>
    obtain hd | rfl | rfl | rfl := varintFirstByte_cases d
    · rw [varintDecode_lt d rest hd] at h
      obtain ⟨rfl, rfl⟩ : d.toNat = v ∧ 1 = n := by simpa using h
      rw [varintEncode_one _ hd, BitVec.ofNat_toNat, BitVec.setWidth_eq]
      rfl
    · obtain ⟨rfl, hl, hv, ht⟩ := varintTail_ok _ _ _ _ _ (varintDecode_fd rest ▸ h)
      rw [varintEncode_fd v hl (by omega), List.take_succ_cons, ht]
    · obtain ⟨rfl, hl, hv, ht⟩ := varintTail_ok _ _ _ _ _ (varintDecode_fe rest ▸ h)
      rw [varintEncode_fe v hl (by omega), List.take_succ_cons, ht]
    · obtain ⟨rfl, hl, -, ht⟩ := varintTail_ok _ _ _ _ _ (varintDecode_ff rest ▸ h)
      rw [varintEncode_ff v hl, List.take_succ_cons, ht]

/-- Settles O22: the bytes taken are the encoding, and an input that begins with the encoding is the round trip's. -/
theorem varintEncodingIsUnique : Obligations.VarintEncodingIsUnique := by
  unfold Obligations.VarintEncodingIsUnique
  intro s v n
  constructor
  · intro h
    obtain ⟨hv, -, hn⟩ := varintDecode_ok s v n h
    have ht := take_of_varintDecode_ok s v n h
    exact ⟨hv, by rw [← ht, List.length_take_of_le hn], ht⟩
  · rintro ⟨hv, rfl, ht⟩
    rw [← List.take_append_drop (varintEncode v).length s, ht, varintDecode_varintEncode v _ hv]

/-! ### What a completion keeps -/

theorem State.complete_readReg (s : State) (c : ErrCode) (r : RegName) (h : r ≠ .status) :
    (s.complete c).readReg r = s.readReg r := by
  cases r with
  | status => exact absurd rfl h
  | _ => rfl

/-- A completion keeps the named registers that were kept before it. -/
theorem RegsKept.complete {w : List RegName} {s t : State} (h : RegsKept w s t) (c : ErrCode) :
    RegsKept w s (t.complete c) :=
  { h with regs := fun r hs hw => (t.complete_readReg c r hs).trans (h.regs r hs hw) }

section
variable (s : State)

theorem State.txPut_regsKept (bs : List Byte) : RegsKept [] s (s.txPut bs) :=
  ⟨fun _ _ _ => rfl, rfl, rfl, rfl, rfl⟩

theorem State.rxTake_regsKept (n : Nat) : RegsKept [] s (s.rxTake n) :=
  ⟨fun _ _ _ => rfl, rfl, rfl, rfl, rfl⟩

theorem State.rxClear_regsKept : RegsKept [] s s.rxClear :=
  ⟨fun _ _ _ => rfl, rfl, rfl, rfl, rfl⟩

/-! ### VARINT.ENC and VARINT.DEC (rules R103, R105) -/

theorem State.rxTake_setVal_regsKept (n : Nat) (v : BitVec 64) : RegsKept [.val] s { s.rxTake n with val := v } := by
  refine ⟨fun r _ hr => ?_, rfl, rfl, rfl, rfl⟩
  cases r with
  | val => exact absurd (List.mem_singleton.mpr rfl) hr
  | _ => rfl

theorem exec_varintEnc : exec .varintEnc s = .next ((s.txPut (varintEncode s.val.toNat)).complete .ok) := rfl

theorem exec_varintDec : exec .varintDec s =
    completeRead (varintDecode s.rxq) (fun v s => { s with val := BitVec.ofNat 64 v }) id s := rfl

theorem exec_varintDec_ok (v n : Nat) (h : varintDecode s.rxq = .ok v n) :
    exec .varintDec s = .next ({ s.rxTake n with val := BitVec.ofNat 64 v }.complete .ok) := by
  rw [exec_varintDec, h]
  rfl

theorem exec_varintDec_err (c : ErrCode) (n : Nat) (h : varintDecode s.rxq = .err c n) :
    exec .varintDec s = .next ((s.rxTake n).complete c) := by
  rw [exec_varintDec, h]
  rfl

theorem exec_varintDec_ended (h : varintDecode s.rxq = .short) (he : s.rxEof = true) :
    exec .varintDec s = .next (s.rxClear.complete .ioShortRead) := by
  rw [exec_varintDec, h]
  exact completeRead_ended _ id s he

theorem exec_varintDec_waits (h : varintDecode s.rxq = .short) (he : s.rxEof = false) :
    exec .varintDec s = .next s := by
  rw [exec_varintDec, h, completeRead_waits _ _ s he]

end

/-- Settles O24: the encoding goes to TX, and the completion writes the report. -/
theorem varintEncAppendsTheEncoding : Obligations.VarintEncAppendsTheEncoding := by
  unfold Obligations.VarintEncAppendsTheEncoding
  exact ⟨decode_encode .varintEnc, fun s => ⟨_, exec_varintEnc s, rfl, complete_endsWith .ok s _ rfl,
    (s.txPut_regsKept _).complete .ok, ⟨rfl, rfl⟩, fun _ _ => rfl, rfl⟩⟩

/-- Settles O25: each outcome of the decoder is the state that VARINT.DEC answers with. -/
theorem varintDecFollowsTheDecoder : Obligations.VarintDecFollowsTheDecoder := by
  unfold Obligations.VarintDecFollowsTheDecoder
  refine ⟨decode_encode .varintDec, fun s => ⟨fun v n h => ?_, fun c n h => ?_, fun h he => ?_, fun h he => ?_⟩⟩
  · have hv : (BitVec.ofNat 64 v).toNat = v := Nat.mod_eq_of_lt (varintDecode_ok s.rxq v n h).1
    exact ⟨_, exec_varintDec_ok s v n h, hv, rfl, complete_endsWith .ok s _ rfl,
      (s.rxTake_setVal_regsKept n _).complete .ok, ⟨rfl, rfl⟩, fun _ _ => rfl, rfl⟩
  · exact ⟨(varintDecode_err s.rxq c n h).1, _, exec_varintDec_err s c n h, rfl, complete_endsWith c s _ rfl,
      (s.rxTake_regsKept n).complete c, ⟨rfl, rfl⟩, fun _ _ => rfl, rfl⟩
  · exact ⟨_, exec_varintDec_ended s h he, rfl, complete_endsWith .ioShortRead s _ rfl,
      s.rxClear_regsKept.complete .ioShortRead, ⟨rfl, rfl⟩, fun _ _ => rfl, rfl⟩
  · exact exec_varintDec_waits s h he

/-- Settles O21: the round trip of a value, and of VAL through the two commands. -/
theorem varintRoundTrip : Obligations.VarintRoundTrip := by
  unfold Obligations.VarintRoundTrip
  refine ⟨varintDecode_varintEncode, fun s u r => ⟨_, _, exec_varintEnc s, rfl, fun hq => ?_⟩⟩
  have hd : varintDecode u.rxq = .ok s.val.toNat (varintEncode s.val.toNat).length := by
    rw [hq, varintDecode_varintEncode _ r s.val.isLt]
  have hr : u.rxq.drop (varintEncode s.val.toNat).length = r := by rw [hq, List.drop_left]
  have hv : BitVec.ofNat 64 s.val.toNat = s.val := by rw [BitVec.ofNat_toNat, BitVec.setWidth_eq]
  exact ⟨_, exec_varintDec_ok u _ _ hd, hv, rfl, hr⟩

end Sys2Proof.Machine

/-! Varstrings (`41_varstring.md`): the decoder by the outcome of its prefix, as the encoder's inverse in both
directions, the reach of a store in DBUF, and the two commands. -/

namespace Sys2Proof.Machine

open Sys2Proof Host

/-! ### The decoder by its prefix (rule R116) -/

section
variable {s : List Byte} {l n : Nat} (h : varintDecode s = .ok l n)
include h

theorem varstrDecode_tooLong (hl : Config.maxPayload < l) : varstrDecode s = .err .protoVarstringTooLong n := by
  simp only [varstrDecode, h, if_pos hl]

theorem varstrDecode_body (hl : l ≤ Config.maxPayload) (hs : n + l ≤ s.length) :
    varstrDecode s = .ok ((s.drop n).take l) (n + l) := by
  simp only [varstrDecode, h, if_neg (Nat.not_lt.mpr hl), if_neg (Nat.not_lt.mpr hs)]

end

/-- What the decoder takes when it accepts: a prefix that announces the body's length, and the body. -/
theorem varstrDecode_ok (s b : List Byte) (m : Nat) (h : varstrDecode s = .ok b m) :
    ∃ n, varintDecode s = .ok b.length n ∧ m = n + b.length ∧ (s.drop n).take b.length = b := by
  obtain ⟨-, hd⟩ | ⟨_, _, -, hd⟩ | ⟨_, _, -, -, hd⟩ | ⟨_, _, -, -, -, hd⟩ | ⟨l, n, hv, -, hs, hd⟩ :=
    varstrDecode_cases s <;> rw [hd] at h <;> cases h
  have hl : ((s.drop n).take l).length = l := List.length_take_of_le (by rw [List.length_drop]; omega)
  exact ⟨n, by rwa [hl], by rw [hl], by rw [hl]⟩

/-- The decoder's two errors: the prefix is not canonical, or it announces more than the bound. -/
theorem varstrDecode_err (s : List Byte) (c : ErrCode) (n : Nat) (h : varstrDecode s = .err c n) :
    c = .protoNoncanonicalVarint ∨
    (c = .protoVarstringTooLong ∧ ∃ l, varintDecode s = .ok l n ∧ Config.maxPayload < l) := by
  obtain ⟨-, hd⟩ | ⟨_, _, hv, hd⟩ | ⟨l, _, hv, hl, hd⟩ | ⟨_, _, -, -, -, hd⟩ | ⟨_, _, -, -, -, hd⟩ :=
    varstrDecode_cases s <;> rw [hd] at h <;> cases h
  · exact .inl (varintDecode_err s c n hv).1
  · exact .inr ⟨rfl, l, hv, hl⟩

/-- An input is too short inside the prefix, or inside a body of an accepted length. -/
theorem varstrDecode_short (s : List Byte) (h : varstrDecode s = .short) :
    varintDecode s = .short ∨ ∃ l n, varintDecode s = .ok l n ∧ l ≤ Config.maxPayload := by
  obtain ⟨hv, -⟩ | ⟨_, _, -, hd⟩ | ⟨_, _, -, -, hd⟩ | ⟨l, n, hv, hl, -⟩ | ⟨_, _, -, -, -, hd⟩ := varstrDecode_cases s
  · exact .inl hv
  · rw [hd] at h; cases h
  · rw [hd] at h; cases h
  · exact .inr ⟨l, n, hv, hl⟩
  · rw [hd] at h; cases h

/-! ### The decoder undoes the encoder, and the other way round (rules R121, R123) -/

/-- Settles O26: the prefix comes back by the varint's round trip, and the body is what stands behind it. -/
theorem varstrRoundTrip : Obligations.VarstrRoundTrip := by
  unfold Obligations.VarstrRoundTrip
  intro b t hb
  have hv : varintDecode (varintEncode b.length ++ (b ++ t)) = .ok b.length (varintEncode b.length).length :=
    varintDecode_varintEncode b.length (b ++ t) (by omega)
  rw [varstrEncode, List.append_assoc, varstrDecode_body hv hb (by simp), List.drop_left, List.take_left]

/-- Settles O27: the bytes taken are the prefix and the body, and an input that begins with the encoding is the round
trip's. -/
theorem varstrEncodingIsUnique : Obligations.VarstrEncodingIsUnique := by
  unfold Obligations.VarstrEncodingIsUnique
  intro s b m
  constructor
  · intro h
    obtain ⟨n, hv, rfl, hb⟩ := varstrDecode_ok s b m h
    obtain ⟨-, rfl, ht⟩ := (varintEncodingIsUnique s b.length n).mp hv
    exact ⟨varstrDecode_ok_length s b _ h, List.length_append.symm, by rw [List.take_add, ht, hb, varstrEncode]⟩
  · rintro ⟨hb, rfl, ht⟩
    rw [← List.take_append_drop (varstrEncode b).length s, ht, varstrRoundTrip b _ hb, varstrEncode,
      List.length_append]

/-- Settles O29: the prefix decodes to the whole length, and that is compared. -/
theorem lengthIsComparedBeforeNarrowing : Obligations.LengthIsComparedBeforeNarrowing := by
  unfold Obligations.LengthIsComparedBeforeNarrowing
  intro l t hl hv
  exact varstrDecode_tooLong (varintDecode_varintEncode l t hv) hl

/-- A prefix that announces more than the bound has one of the two longest forms (rule R122). -/
theorem length_of_varintDecode_tooLong (s : List Byte) (l n : Nat) (h : varintDecode s = .ok l n)
    (hl : Config.maxPayload < l) : n = 5 ∨ n = 9 := by
  have hm : 33554432 < l := hl
  obtain ⟨hv, rfl, -⟩ := (varintEncodingIsUnique s l n).mp h
  obtain ⟨-, -, h5, h9⟩ := varintForms l hv
  by_cases hf : l ≤ 0xFFFFFFFF
  · exact .inl (h5 (by omega) hf).2
  · exact .inr (h9 (by omega)).2

/-! ### The reach of a store (rules R14, R122) -/

/-- A cell after a write is one that was there or one of the written range. -/
theorem Memory.mem_put (m : Memory) (a : Nat) (bs : List Byte) (c : Cell) (h : c ∈ m.put a bs) :
    c ∈ m ∨ (a ≤ c.1 ∧ c.1 < a + bs.length) := by
  rw [Memory.put, List.mem_append, List.mem_append] at h
  obtain (h | h) | h := h
  · exact .inl (List.mem_of_mem_filter h)
  · exact .inr (cellsAt_mem a bs c h)
  · exact .inl (List.mem_of_mem_filter h)

/-- From `s` to `t` nothing is stored at address `n` or above. -/
def StoresBelow (n : Nat) (s t : State) : Prop :=
  DbufKeptFrom n s t ∧ ∀ c ∈ t.dbuf, c ∈ s.dbuf ∨ c.1 < n

section
variable (s : State)

theorem storesBelow_refl (n : Nat) : StoresBelow n s s := ⟨fun _ _ => rfl, fun _ => .inl⟩

theorem State.bodyStored_storesBelow {n : Nat} (b : List Byte) (hb : b.length ≤ n) :
    StoresBelow n s (s.bodyStored b) := by
  refine ⟨fun a ha => s.bodyStored_above b a (hb.trans ha), fun c hc => ?_⟩
  exact (Memory.mem_put s.dbuf 0 b c hc).imp_right fun h => by omega

theorem State.bodyLost_storesBelow {n : Nat} (l : Nat) (hl : l ≤ n) : StoresBelow n s (s.bodyLost l) := by
  refine ⟨fun a ha => s.bodyLost_above l a (hl.trans ha), fun c hc => ?_⟩
  refine (Memory.mem_put s.dbuf 0 _ c hc).imp_right fun h => ?_
  rw [List.length_map, List.length_range] at h
  omega

theorem varstrShort_storesBelow : StoresBelow Config.maxPayload s (varstrShort s) := by
  obtain ⟨l, n, -, hl, hv⟩ | ⟨-, hv⟩ := varstrShort_cases s <;> rw [hv]
  · exact s.bodyLost_storesBelow l hl
  · exact storesBelow_refl s _

/-- A completion and the streams leave DBUF, so a command's reach is that of its store. -/
theorem execVarstrDec_storesBelow (t : State) (h : execVarstrDec s = .next t) :
    StoresBelow Config.maxPayload s t := by
  obtain ⟨b, n, hd, rfl⟩ | ⟨c, n, -, -, rfl⟩ | ⟨-, -, rfl⟩ | ⟨-, -, rfl⟩ := execVarstrDec_cases s t h
  · exact s.bodyStored_storesBelow b (varstrDecode_ok_length s.rxq b n hd)
  · exact storesBelow_refl s _
  · exact varstrShort_storesBelow s
  · exact storesBelow_refl _ _

/-! ### What an end of stream inside a varstring does (rule R119) -/

/-- An end of stream inside the prefix takes RX only. -/
theorem varstrShort_prefix (hv : varintDecode s.rxq = .short) : varstrShort s = s := by
  simp only [varstrShort, hv]

/-- An end of stream behind an accepted prefix loses the body. -/
theorem varstrShort_body (l n : Nat) (hv : varintDecode s.rxq = .ok l n) (hl : l ≤ Config.maxPayload) :
    varstrShort s = s.bodyLost l := by
  simp only [varstrShort, hv, if_pos hl]

/-! ### VARSTR.ENC and VARSTR.DEC (rules R117, R119) -/

theorem regsKept_refl : RegsKept [] s s := ⟨fun _ _ _ => rfl, rfl, rfl, rfl, rfl⟩

theorem RegsKept.rxClear {w : List RegName} {s t : State} (h : RegsKept w s t) : RegsKept w s t.rxClear :=
  ⟨h.regs, h.cmdl, h.rxEof, h.script, h.hostData⟩

/-- A write of DLEN keeps the other named registers. -/
theorem RegsKept.setDlen {s t : State} (h : RegsKept [] s t) (d : BitVec 26) :
    RegsKept [.dlen] s { t with dlen := d } := by
  refine ⟨fun r hs hr => ?_, h.cmdl, h.rxEof, h.script, h.hostData⟩
  cases r with
  | dlen => exact absurd (List.mem_singleton.mpr rfl) hr
  | _ => exact h.regs _ hs nofun

theorem RegsKept.bodyStored {s t : State} (h : RegsKept [] s t) (b : List Byte) :
    RegsKept [.dlen] s (t.bodyStored b) :=
  RegsKept.setDlen (t := t.memWrite 0 b) ⟨h.regs, h.cmdl, h.rxEof, h.script, h.hostData⟩ _

theorem RegsKept.bodyLost {s t : State} (h : RegsKept [] s t) (n : Nat) : RegsKept [.dlen] s (t.bodyLost n) :=
  RegsKept.setDlen (t := t.memUnspecify n) ⟨h.regs, h.cmdl, h.rxEof, h.script, h.hostData⟩ _

theorem exec_varstrDec : exec .varstrDec s =
    completeRead (varstrDecode s.rxq) (fun b s => s.bodyStored b) varstrShort s := rfl

theorem exec_varstrDec_ok (b : List Byte) (m : Nat) (h : varstrDecode s.rxq = .ok b m) :
    exec .varstrDec s = .next (((s.rxTake m).bodyStored b).complete .ok) := by
  rw [exec_varstrDec, h]
  rfl

theorem exec_varstrDec_err (c : ErrCode) (n : Nat) (h : varstrDecode s.rxq = .err c n) :
    exec .varstrDec s = .next ((s.rxTake n).complete c) := by
  rw [exec_varstrDec, h]
  rfl

theorem exec_varstrDec_ended (h : varstrDecode s.rxq = .short) (he : s.rxEof = true) :
    exec .varstrDec s = .next ((varstrShort s).rxClear.complete .ioShortRead) := by
  rw [exec_varstrDec, h]
  exact completeRead_ended _ varstrShort s he

theorem exec_varstrDec_waits (h : varstrDecode s.rxq = .short) (he : s.rxEof = false) :
    exec .varstrDec s = .next s := by
  rw [exec_varstrDec, h, completeRead_waits _ _ s he]

end

/-- Settles O28: the announced length has a long form and only the prefix is taken; every store is below the bound. -/
theorem forgedLengthHasBoundedEffect : Obligations.ForgedLengthHasBoundedEffect := by
  unfold Obligations.ForgedLengthHasBoundedEffect
  refine ⟨fun s n h => ⟨?_, _, exec_varstrDec_err s _ n h, rfl, rfl, fun _ _ => rfl⟩, execVarstrDec_storesBelow⟩
  obtain hc | ⟨-, l, hv, hl⟩ := varstrDecode_err s.rxq _ n h
  · cases hc
  · exact length_of_varintDecode_tooLong s.rxq l n hv hl

/-- Settles O30: the prefix and the valid content go to TX, and the completion writes the report. -/
theorem varstrEncAppendsPrefixAndBody : Obligations.VarstrEncAppendsPrefixAndBody := by
  unfold Obligations.VarstrEncAppendsPrefixAndBody
  exact ⟨decode_encode .varstrEnc, fun s hd => ⟨_, s.memRead 0 s.dlen.toNat, execVarstrEnc_eq s hd, rfl,
    s.memRead_length 0 _, s.memRead_getElem? _, complete_endsWith .ok s _ rfl, (s.txPut_regsKept _).complete .ok,
    ⟨rfl, rfl⟩, fun _ _ => rfl, rfl⟩⟩

/-- Settles O31: each outcome of the decoder is the state that VARSTR.DEC answers with. -/
theorem varstrDecFollowsTheDecoder : Obligations.VarstrDecFollowsTheDecoder := by
  unfold Obligations.VarstrDecFollowsTheDecoder
  refine ⟨decode_encode .varstrDec, fun s => ⟨fun b m h => ?_, fun c n h => ?_, fun h he => ?_, fun h he => ?_⟩⟩
  · exact ⟨_, exec_varstrDec_ok s b m h, rfl,
      (s.rxTake m).bodyStored_dlen_toNat b (varstrDecode_ok_length s.rxq b m h),
      (s.rxTake m).bodyStored_dbufByte b, (s.rxTake m).bodyStored_above b, complete_endsWith .ok s _ (by simp),
      ((s.rxTake_regsKept m).bodyStored b).complete .ok, ⟨by simp, by simp⟩, by simp⟩
  · exact ⟨(varstrDecode_err s.rxq c n h).imp_right And.left, _, exec_varstrDec_err s c n h, rfl,
      complete_endsWith c s _ rfl, (s.rxTake_regsKept n).complete c, ⟨rfl, rfl⟩, fun _ _ => rfl, rfl⟩
  · refine ⟨_, exec_varstrDec_ended s h he, rfl, ?_⟩
    obtain hv | ⟨l, n, hv, hl⟩ := varstrDecode_short s.rxq h
    · rw [varstrShort_prefix s hv]
      exact ⟨complete_endsWith .ioShortRead s _ rfl, ⟨rfl, rfl⟩, rfl, fun _ _ hp => absurd (hv.symm.trans hp) nofun,
        fun _ => ⟨fun _ _ => rfl, s.rxClear_regsKept.complete .ioShortRead⟩⟩
    · rw [varstrShort_body s l n hv hl]
      refine ⟨complete_endsWith .ioShortRead s _ (by simp), ⟨by simp, by simp⟩,
        by simp, fun l' n' hp => ?_, fun hp => absurd (hv.symm.trans hp) nofun⟩
      obtain rfl : l = l' := (DecOut.ok.inj (hv.symm.trans hp)).1
      exact ⟨rfl, s.bodyLost_above l, ((regsKept_refl s).bodyLost l).rxClear.complete .ioShortRead⟩
  · exact exec_varstrDec_waits s h he

end Sys2Proof.Machine

/-! Network addresses (`42_netaddress.md`): when a timestamp is due, the decoder by the record at the front of its input
and as the encoder's inverse, and the two commands. -/

namespace Sys2Proof.Machine

open Sys2Proof Host

/-! ### The layout of a record (rules R130, R132) -/

theorem hasTs_iff (t : Bool) (pver tsver : Word) :
    hasTs t pver tsver = true ↔ t = true ∧ tsver.toNat ≤ pver.toNat := by
  rw [hasTs, Bool.and_eq_true, decide_eq_true_iff]

/-- The bytes that a timestamp takes. -/
def timestampLen (ts : Bool) : Nat := if ts then 4 else 0

/-- The timestamp at the front of a record, when one is due. -/
def timestampBytes (ts : Bool) (time : Word) : List Byte := if ts then leBytes 4 time.toNat else []

@[simp] theorem timestampBytes_length (ts : Bool) (time : Word) :
    (timestampBytes ts time).length = timestampLen ts := by
  cases ts <;> rfl

theorem netaddrEncode_eq (ts : Bool) (a : NetAddr) : netaddrEncode ts a =
    timestampBytes ts a.time ++ leBytes 8 a.svc.toNat ++ a.ip.toList ++ beBytes 2 a.port.toNat := rfl

theorem netaddrEncode_length (ts : Bool) (a : NetAddr) : (netaddrEncode ts a).length = timestampLen ts + 26 := by
  simp [netaddrEncode_eq]

theorem timestampLen_add (ts : Bool) : timestampLen ts + 26 = if ts then 30 else 26 := by
  cases ts <;> rfl

/-! ### The decoder (rules R134, R137) -/

section
variable (ts : Bool) (s : List Byte)

/-- The NetAddress at the front of a sequence (rule R134). -/
def netaddrOf : NetAddr where
  time := if ts then leWord (slice s 0 4) else 0
  svc := BitVec.ofNat 64 (le (slice s (timestampLen ts) (timestampLen ts + 8)))
  ip := bytesOf 16 (slice s (timestampLen ts + 8) (timestampLen ts + 24))
  port := BitVec.ofNat 16 (be (slice s (timestampLen ts + 24) (timestampLen ts + 26)))

theorem netaddrDecode_whole (h : timestampLen ts + 26 ≤ s.length) :
    netaddrDecode ts s = .ok (netaddrOf ts s) (timestampLen ts + 26) := if_neg (Nat.not_lt.mpr h)

theorem netaddrDecode_short (h : s.length < timestampLen ts + 26) : netaddrDecode ts s = .short := if_pos h

end

/-- The record at the front of a sequence is the one laid out there, without the timestamp that is not carried. -/
theorem netaddrOf_netaddrEncode (ts : Bool) (a : NetAddr) (t : List Byte) :
    netaddrOf ts (netaddrEncode ts a ++ t) = { a with time := if ts then a.time else 0 } := by
  have htime : (if ts then leWord (slice (netaddrEncode ts a ++ t) 0 4) else 0) = if ts then a.time else 0 := by
    cases ts with
    | false => rfl
    | true => exact leWord_leBytes a.time
  have hsvc : slice (netaddrEncode ts a ++ t) (timestampLen ts) (timestampLen ts + 8) = leBytes 8 a.svc.toNat := by
    simpa [netaddrEncode_eq] using
      slice_middle (timestampBytes ts a.time) (leBytes 8 a.svc.toNat) _ _ _ (by simp) (by simp)
  have hip : slice (netaddrEncode ts a ++ t) (timestampLen ts + 8) (timestampLen ts + 24) = a.ip.toList := by
    simpa [netaddrEncode_eq] using
      slice_middle (timestampBytes ts a.time ++ leBytes 8 a.svc.toNat) a.ip.toList _ _ _ (by simp) (by simp)
  have hport : slice (netaddrEncode ts a ++ t) (timestampLen ts + 24) (timestampLen ts + 26) =
      beBytes 2 a.port.toNat := by
    simpa [netaddrEncode_eq] using
      slice_middle (timestampBytes ts a.time ++ leBytes 8 a.svc.toNat ++ a.ip.toList) (beBytes 2 a.port.toNat) t _ _
        (by simp) (by simp)
  rw [netaddrOf, htime, hsvc, hip, hport, le_leBytes 8 _ a.svc.isLt, be_beBytes 2 _ a.port.isLt]
  simp

/-- Settles O32: the record is read back field by field, and its length is the timestamp's and 26. -/
theorem netaddrRoundTrip : Obligations.NetaddrRoundTrip := by
  unfold Obligations.NetaddrRoundTrip
  refine ⟨hasTs_iff, fun ts a t => ?_⟩
  rw [← timestampLen_add, netaddrDecode_whole ts _ (by simp [netaddrEncode_length]), netaddrOf_netaddrEncode]
  exact ⟨rfl, netaddrEncode_length ts a⟩

/-! ### The fields as the numbers of their bytes (rule R12) -/

theorem slice_add_length_le (s : List Byte) (i n : Nat) : (slice s i (i + n)).length ≤ n := by
  rw [slice, Nat.add_sub_cancel_left]
  exact List.length_take_le n _

/-- A register of `n` bytes holds the number that at most `n` bytes lay out. -/
theorem toNat_ofNat_le (n : Nat) (b : List Byte) (h : b.length ≤ n) : (BitVec.ofNat (8 * n) (le b)).toNat = le b := by
  rw [BitVec.toNat_ofNat, Nat.mod_eq_of_lt]
  calc le b < 256 ^ b.length := le_lt b
    _ ≤ 256 ^ n := Nat.pow_le_pow_right (by decide) h
    _ = 2 ^ (8 * n) := (Nat.pow_mul 2 8 n).symm

theorem toNat_ofNat_be (n : Nat) (b : List Byte) (h : b.length ≤ n) : (BitVec.ofNat (8 * n) (be b)).toNat = be b :=
  toNat_ofNat_le n b.reverse (by rwa [List.length_reverse])

section
variable (ts : Bool) (s : List Byte)

theorem netaddrOf_time : (netaddrOf ts s).time.toNat = if ts then le (slice s 0 4) else 0 := by
  cases ts with
  | false => rfl
  | true => exact toNat_ofNat_le 4 _ (slice_add_length_le s 0 4)

theorem netaddrOf_svc :
    (netaddrOf ts s).svc.toNat = le (slice s (timestampLen ts) (timestampLen ts + 8)) :=
  toNat_ofNat_le 8 _ (slice_add_length_le s _ 8)

theorem netaddrOf_ip (h : timestampLen ts + 26 ≤ s.length) :
    (netaddrOf ts s).ip.toList = slice s (timestampLen ts + 8) (timestampLen ts + 24) :=
  bytesOf_toList 16 _ (by rw [slice_length s _ _ (by omega)]; omega)

theorem netaddrOf_port :
    (netaddrOf ts s).port.toNat = be (slice s (timestampLen ts + 24) (timestampLen ts + 26)) :=
  toNat_ofNat_be 2 _ (slice_add_length_le s _ 2)

end

/-! ### NETADDR.ENC and NETADDR.DEC (rules R133, R135) -/

section
variable (s : State) (t : Bool)

theorem exec_netaddrEnc : exec (.netaddrEnc t) s =
    .next ((s.txPut (netaddrEncode (hasTs t s.pver s.tsver) s.netAddr)).complete .ok) := rfl

theorem exec_netaddrDec : exec (.netaddrDec t) s =
    completeRead (netaddrDecode (hasTs t s.pver s.tsver) s.rxq)
      (fun a u => u.setNetAddr (hasTs t s.pver s.tsver) a) id s := rfl

theorem State.rxTake_setNetAddr_regsKept (n : Nat) (ts : Bool) (a : NetAddr) :
    RegsKept [.naTime, .naSvc, .naIp, .naPort] s ((s.rxTake n).setNetAddr ts a) := by
  refine ⟨fun r hs hr => ?_, rfl, rfl, rfl, rfl⟩
  cases r with
  | status => exact absurd rfl hs
  | naTime | naSvc | naIp | naPort => exact absurd (by decide) hr
  | _ => rfl

variable (ts : Bool) (hts : hasTs t s.pver s.tsver = ts)
include hts

theorem exec_netaddrDec_whole (h : timestampLen ts + 26 ≤ s.rxq.length) :
    exec (.netaddrDec t) s =
      .next (((s.rxTake (timestampLen ts + 26)).setNetAddr ts (netaddrOf ts s.rxq)).complete .ok) := by
  rw [exec_netaddrDec, hts, netaddrDecode_whole ts s.rxq h]
  rfl

variable (h : s.rxq.length < timestampLen ts + 26)
include h

theorem exec_netaddrDec_ended (he : s.rxEof = true) :
    exec (.netaddrDec t) s = .next (s.rxClear.complete .ioShortRead) := by
  rw [exec_netaddrDec, hts, netaddrDecode_short ts s.rxq h]
  exact completeRead_ended _ id s he

theorem exec_netaddrDec_waits (he : s.rxEof = false) : exec (.netaddrDec t) s = .next s := by
  rw [exec_netaddrDec, hts, netaddrDecode_short ts s.rxq h, completeRead_waits _ _ s he]

end

/-- Settles O34: the record that is there is written to the registers field by field, and a short input is a short read
or a hold. -/
theorem netaddrDecReadsTheRecord : Obligations.NetaddrDecReadsTheRecord := by
  unfold Obligations.NetaddrDecReadsTheRecord
  refine ⟨decode_encode (.netaddrDec false), decode_encode (.netaddrDec true), ?_⟩
  rintro s t ts k hdue rfl
  have hts : hasTs t s.pver s.tsver = ts := Bool.eq_iff_iff.mpr ((hasTs_iff t s.pver s.tsver).trans hdue.symm)
  refine ⟨fun h => ?_, fun h he => ?_, fun h he => exec_netaddrDec_waits s t ts hts h he⟩
  · exact ⟨_, exec_netaddrDec_whole s t ts hts h, netaddrOf_time ts s.rxq, netaddrOf_svc ts s.rxq,
      netaddrOf_ip ts s.rxq h, netaddrOf_port ts s.rxq, rfl, rfl, complete_endsWith .ok s _ rfl,
      (s.rxTake_setNetAddr_regsKept _ ts _).complete .ok, rfl, fun _ _ => rfl, rfl⟩
  · exact ⟨_, exec_netaddrDec_ended s t ts hts h he, rfl, complete_endsWith .ioShortRead s _ rfl,
      s.rxClear_regsKept.complete .ioShortRead, ⟨rfl, rfl⟩, fun _ _ => rfl, rfl⟩

/-- Settles O33: the record of the registers goes to TX, with a timestamp when one is due, and the completion writes the
report. -/
theorem netaddrEncAppendsTheRecord : Obligations.NetaddrEncAppendsTheRecord := by
  unfold Obligations.NetaddrEncAppendsTheRecord
  refine ⟨decode_encode (.netaddrEnc false), decode_encode (.netaddrEnc true), fun s t => ?_⟩
  simp only [← hasTs_iff]
  exact ⟨_, exec_netaddrEnc s t, rfl, complete_endsWith .ok s _ rfl, (s.txPut_regsKept _).complete .ok, ⟨rfl, rfl⟩,
    fun _ _ => rfl, rfl⟩

end Sys2Proof.Machine

/-! Digest and checksum (`43_checksum.md`): the length of the padded message, the digest at the inputs that rule R160
lists, the checksum as the front of the double digest, and the two commands. -/

namespace Sys2Proof.Machine

open Sys2Proof Host

/-! ### Padding (rule R155) -/

/-- The number of padding zeros of a message of `n` bytes, `(55 - n) mod 64`. -/
def padZeros (n : Nat) : Nat := (119 - n % 64) % 64

theorem padZeros_lt (n : Nat) : padZeros n < 64 := Nat.mod_lt _ (by decide)

theorem add_padZeros_mod (n : Nat) : (n + padZeros n) % 64 = 55 := by
  unfold padZeros
  omega

section
variable (m : List Byte)

theorem shaPad_eq : shaPad m = m ++ [0x80] ++ List.replicate (padZeros m.length) 0 ++ beBytes 8 (8 * m.length) := by
  rw [List.append_assoc m]
  rfl

theorem shaPad_length : (shaPad m).length = m.length + 1 + padZeros m.length + 8 := by
  simp only [shaPad_eq, List.length_append, List.length_singleton, List.length_replicate, beBytes_length]

theorem shaPad_length_mod : (shaPad m).length % 64 = 0 := by
  have := add_padZeros_mod m.length
  rw [shaPad_length]
  omega

theorem shaPad_length_of {n : Nat} (h : m.length = n) : (shaPad m).length = n + 1 + padZeros n + 8 := by
  rw [shaPad_length, h]

end

/-- Settles O37: `padZeros` is the rule's `k`, and the length follows from it. -/
theorem paddingFillsWholeBlocks : Obligations.PaddingFillsWholeBlocks := by
  unfold Obligations.PaddingFillsWholeBlocks
  exact ⟨fun m => ⟨padZeros m.length, padZeros_lt _, add_padZeros_mod _, shaPad_eq m, shaPad_length m,
    shaPad_length_mod m⟩, fun m => ⟨shaPad_length_of m, shaPad_length_of m, shaPad_length_of m, shaPad_length_of m⟩⟩

/-! ### The digest and the checksum (rules R145, R146, R160) -/

@[simp] theorem shaOutput_length (h : ShaState) : (shaOutput h).length = 32 := by
  simp [shaOutput]

@[simp] theorem sha256_length (b : List Byte) : (sha256 b).length = 32 := shaOutput_length _

theorem checksum_toList (b : List Byte) : (checksum b).toList = (sha256 (sha256 b)).take 4 := by
  simp [checksum, bytesOf_eq]

/-- Settles O36: a digest is eight words of four bytes, so its first four bytes are there to take. -/
theorem checksumIsTheFrontOfTheDoubleDigest : Obligations.ChecksumIsTheFrontOfTheDoubleDigest := by
  unfold Obligations.ChecksumIsTheFrontOfTheDoubleDigest
  exact fun b => ⟨sha256_length b, checksum_toList b⟩

theorem sha256_empty :
    sha256 [] = beBytes 32 0xE3B0C44298FC1C149AFBF4C8996FB92427AE41E4649B934CA495991B7852B855 := by
  decide +kernel

theorem sha256_sha256_empty :
    sha256 (sha256 []) = beBytes 32 0x5DF6E0E2761359D30A8275058E299FCC0381534545F55CF43E41983F5D4C9456 := by
  rw [sha256_empty]
  decide +kernel

theorem sha256_abc :
    sha256 [0x61, 0x62, 0x63] = beBytes 32 0xBA7816BF8F01CFEA414140DE5DAE2223B00361A396177A9CB410FF61F20015AD := by
  decide +kernel

theorem sha256_sha256_abc : sha256 (sha256 [0x61, 0x62, 0x63]) =
    beBytes 32 0x4F8B42C22DD3729B519BA6F68D2DA7CC5B2D606D05DAED5AD5128CC03E6C6358 := by
  rw [sha256_abc]
  decide +kernel

/-- Settles O35: the digests are computed, and each checksum is the front of its double digest. -/
theorem knownChecksums : Obligations.KnownChecksums := by
  unfold Obligations.KnownChecksums
  rw [checksum_toList, checksum_toList, sha256_sha256_empty, sha256_sha256_abc]
  exact ⟨sha256_empty, rfl, rfl, sha256_abc, rfl, rfl⟩

/-! ### CKSUM.GEN and CKSUM.VFY (rules R148, R149) -/

theorem State.setCk_regsKept (s : State) (c : Bytes 4) : RegsKept [.ck] s (s.setCk c) := by
  refine ⟨fun r _ hr => ?_, rfl, rfl, rfl, rfl⟩
  cases r with
  | ck => exact absurd (List.mem_singleton.mpr rfl) hr
  | _ => rfl

/-- Settles O38: CK takes the checksum of the valid content, and the completion writes the report. -/
theorem cksumGenWritesCk : Obligations.CksumGenWritesCk := by
  unfold Obligations.CksumGenWritesCk
  exact ⟨decode_encode .cksumGen, fun s hd => ⟨_, s.memRead 0 s.dlen.toNat, execCksumGen_eq s hd,
    s.memRead_length 0 _, s.memRead_getElem? _, rfl, complete_endsWith .ok s _ rfl,
    (s.setCk_regsKept _).complete .ok, ⟨rfl, rfl⟩, fun _ _ => rfl, ⟨rfl, rfl⟩⟩⟩

/-- Settles O39: CK is written before the comparison, which chooses the code of the report and nothing else. -/
theorem cksumVfyComparesFourBytes : Obligations.CksumVfyComparesFourBytes := by
  unfold Obligations.CksumVfyComparesFourBytes
  refine ⟨decode_encode .cksumVfy, fun s hd => ⟨_, s.memRead 0 s.dlen.toNat, execCksumVfy_eq s hd,
    s.memRead_length 0 _, s.memRead_getElem? _, rfl, fun hmatch => ?_, fun hdiffers => ?_,
    (s.setCk_regsKept _).complete _, ⟨rfl, rfl⟩, fun _ _ => rfl, ⟨rfl, rfl⟩⟩⟩
  · rw [if_pos hmatch]
    exact complete_endsWith .ok s _ rfl
  · rw [if_neg hdiffers]
    exact complete_endsWith .frameChecksumMismatch s _ rfl

end Sys2Proof.Machine

/-! Headers (`44_header.md`): the stripped command as a longest prefix, the fields of 24 bytes and their layout, and the
three header commands, HDR.DEC by what each branch of it leaves. -/

namespace Sys2Proof.Machine

open Sys2Proof Host

/-! ### The stripped command field (rule R176) -/

section
variable (c : List Byte)

theorem stripZeros_eq_rdropWhile : stripZeros c = c.rdropWhile (· == 0) := rfl

theorem stripZeros_isPrefix : stripZeros c <+: c := List.rdropWhile_prefix _ c

theorem stripZeros_length_le : (stripZeros c).length ≤ c.length := (stripZeros_isPrefix c).length_le

theorem stripZeros_concat (b : Byte) :
    stripZeros (c ++ [b]) = if b = 0 then stripZeros c else c ++ [b] := by
  simp only [stripZeros_eq_rdropWhile, List.rdropWhile_concat, beq_iff_eq]

theorem stripZeros_getLast?_ne : (stripZeros c).getLast? ≠ some 0 := by
  induction c using List.reverseRecOn with
  | nil => exact nofun
  | append_singleton c b ih =>
    rw [stripZeros_concat]
    split
    · exact ih
    · next hb => simpa using hb

/-- A prefix that does not end in zero survives the stripping. -/
theorem isPrefix_stripZeros (p : List Byte) (hp : p <+: c) (hz : p.getLast? ≠ some 0) : p <+: stripZeros c := by
  induction c using List.reverseRecOn with
  | nil => exact hp
  | append_singleton c b ih =>
    rw [stripZeros_concat]
    split
    · next hb =>
      obtain rfl | hp := List.prefix_concat_iff.mp hp
      · exact absurd (by simp [hb]) hz
      · exact ih hp
    · exact hp

end

/-- Settles O41: the stripped sequence is such a prefix, and every other one is a prefix of it. -/
theorem stripZerosIsTheLongestPrefix : Obligations.StripZerosIsTheLongestPrefix := by
  unfold Obligations.StripZerosIsTheLongestPrefix
  have hlongest : ∀ c p : List Byte, p <+: c → (p = [] ∨ p.getLast? ≠ some 0) → p <+: stripZeros c := by
    rintro c p hp (rfl | hz)
    · exact List.nil_prefix
    · exact isPrefix_stripZeros c p hp hz
  refine fun c p => ⟨?_, fun ⟨hp, hz, hmax⟩ => ?_⟩
  · rintro rfl
    exact ⟨stripZeros_isPrefix c, .inr (stripZeros_getLast?_ne c), fun p' hp hz => (hlongest c p' hp hz).length_le⟩
  · exact (hlongest c p hp hz).eq_of_length_le
      (hmax _ (stripZeros_isPrefix c) (.inr (stripZeros_getLast?_ne c)))

/-! ### The fields of 24 bytes (rules R170, R175) -/

theorem slice_append_slice (q : List Byte) {i j k : Nat} (hij : i ≤ j) (hjk : j ≤ k) :
    slice q i j ++ slice q j k = slice q i k := by
  have hk : k - i = (j - i) + (k - j) := by omega
  have hj : i + (j - i) = j := by omega
  rw [slice, slice, slice, hk, List.take_add, List.drop_drop, hj]

section
variable (q : List Byte)

theorem headerOf_size : (headerOf q).size.toNat = le (slice q 16 20) :=
  toNat_ofNat_le 4 _ (slice_add_length_le q 16 4)

variable (h : 24 ≤ q.length)
include h

theorem headerOf_magic : (headerOf q).magic.toList = slice q 0 4 :=
  bytesOf_toList 4 _ (slice_length q 0 4 (by omega))

theorem headerOf_cmd : (headerOf q).cmd.toList = slice q 4 16 :=
  bytesOf_toList 12 _ (slice_length q 4 16 (by omega))

theorem headerOf_cksum : (headerOf q).cksum.toList = slice q 20 24 :=
  bytesOf_toList 4 _ (slice_length q 20 24 h)

/-- The fields at the front of a sequence laid out again are its first 24 bytes. -/
theorem headerBytes_headerOf : headerBytes (headerOf q) = q.take 24 := by
  have hsize : leBytes 4 (le (slice q 16 20)) = slice q 16 20 := by
    have hl : (slice q 16 20).length = 4 := slice_length q 16 20 (by omega)
    simpa only [hl] using leBytes_le (slice q 16 20)
  rw [headerBytes, headerOf_magic q h, headerOf_cmd q h, headerOf_size, headerOf_cksum q h, hsize,
    slice_append_slice q (by decide) (by decide), slice_append_slice q (by decide) (by decide),
    slice_append_slice q (by decide) (by decide)]
  rfl

end

/-- Settles O40: each field is its slice, and the four slices join to the 24 bytes. -/
theorem headerFieldsAreTheBytes : Obligations.HeaderFieldsAreTheBytes := by
  unfold Obligations.HeaderFieldsAreTheBytes
  intro q hq
  have h : 24 ≤ q.length := hq.ge
  exact ⟨headerOf_magic q h, headerOf_cmd q h, headerOf_size q, headerOf_cksum q h,
    (headerBytes_headerOf q h).trans (List.take_of_length_le hq.le)⟩

/-! ### The validations (rules R178, R181) -/

theorem not_validText_iff (t : List Byte) :
    (!validText t) = true ↔ ∃ b ∈ t, b.toNat < 0x01 ∨ 0x7F < b.toNat := by
  simp only [validText, Bool.not_eq_true', List.all_eq_false, Bool.and_eq_true, decide_eq_true_eq, not_and_or, not_le]

/-- The model's validation of the fields is the rule's of the bytes. -/
theorem headerError_headerOf (magic : Bytes 4) (q : List Byte) (h : 24 ≤ q.length) :
    headerError magic (headerOf q) = failedValidation magic q := by
  rw [headerError, failedValidation, headerOf_cmd q h, ← headerOf_magic q h]
  exact if_congr Vector.toList_inj.not.symm rfl (if_congr (not_validText_iff _) rfl rfl)

/-! ### What the commands write and keep -/

section
variable {s t : State} (h : RegsKept [] s t)
include h

theorem RegsKept.setHeader (x : Header) : RegsKept [.hMagic, .hCmd, .hSize, .hCksum] s (t.setHeader x) := by
  refine ⟨fun r hs hr => ?_, h.cmdl, h.rxEof, h.script, h.hostData⟩
  cases r with
  | hMagic | hCmd | hSize | hCksum => exact absurd (by decide) hr
  | _ => exact h.regs _ hs nofun

theorem RegsKept.latch (x : Header) : RegsKept [.hMagic, .hCmd, .hSize, .hCksum, .cmdLen] s (t.latch x) := by
  refine ⟨fun r hs hr => ?_, h.cmdl, h.rxEof, h.script, h.hostData⟩
  cases r with
  | hMagic | hCmd | hSize | hCksum | cmdLen => exact absurd (by decide) hr
  | _ => exact h.regs _ hs nofun

end

theorem State.setDrainshort_readReg (s : State) (d : Bool) (r : RegName) (h : r ≠ .status) :
    (s.setDrainshort d).readReg r = s.readReg r := by
  cases r with
  | status => exact absurd rfl h
  | _ => rfl

/-- DRAINSHORT is part of STATUS and of no other named register. -/
theorem RegsKept.setDrainshort {w : List RegName} {s t : State} (h : RegsKept w s t) (d : Bool) :
    RegsKept w s (t.setDrainshort d) :=
  { h with regs := fun r hs hw => (t.setDrainshort_readReg d r hs).trans (h.regs r hs hw) }

/-- CMD_LEN has room for the length of any stripped command field (`10_state.md` rule R24). -/
theorem State.latch_cmdLen_toNat (s : State) (x : Header) :
    (s.latch x).cmdLen.toNat = (stripZeros x.cmd.toList).length := by
  have hl : (stripZeros x.cmd.toList).length ≤ 12 := (stripZeros_length_le _).trans_eq x.cmd.length_toList
  rw [State.latch_cmdLen, BitVec.toNat_ofNat, Nat.mod_eq_of_lt (by omega)]

theorem State.latch_latched (s : State) (q : List Byte) (h : 24 ≤ q.length) : Latched q (s.latch (headerOf q)) :=
  ⟨headerOf_magic q h, headerOf_cmd q h, headerOf_size q, headerOf_cksum q h,
    (s.latch_cmdLen_toNat _).trans (by rw [headerOf_cmd q h])⟩

/-! ### HDR.BUILD and HDR.ENC (rules R171, R173) -/

theorem padCmd_toList (cmd : Bytes 12) (n : Nat) (h : n ≤ 12) :
    (padCmd cmd n).toList = cmd.toList.take n ++ List.replicate (12 - n) 0 := by
  have hl : (cmd.toList.take n).length = n := by rw [List.length_take, cmd.length_toList, min_eq_left h]
  rw [padCmd, bytesOf_eq, hl, List.take_of_length_le (hl.trans_le h)]

theorem execHdrBuild_badOperand (s : State) (h : Config.cmdLenMax < s.cmdLen.toNat) :
    execHdrBuild s = .next (s.complete .cmdBadOperand) := if_pos h

theorem State.complete_cmdBadOperand (s : State) :
    s.complete .cmdBadOperand = { s with err := 0xF2, esticky := true, busy := false } := by
  have hsticky : (s.esticky || ErrCode.cmdBadOperand.setsSticky) = true := Bool.or_true _
  rw [State.complete, hsticky]
  rfl

/-- Settles O42: with CMD_LEN in range the built header goes to the registers, and otherwise only the report is
written. -/
theorem hdrBuildFillsTheHeader : Obligations.HdrBuildFillsTheHeader := by
  unfold Obligations.HdrBuildFillsTheHeader
  refine ⟨decode_encode .hdrBuild, fun s => ⟨fun hc hd => ?_, fun hc => ?_⟩⟩
  · exact ⟨_, s.memRead 0 s.dlen.toNat, execHdrBuild_eq s hd hc, s.memRead_length 0 _, s.memRead_getElem? _, rfl,
      padCmd_toList s.hCmd _ hc, s.builtHeader_size_toNat (s.memRead 0 s.dlen.toNat), rfl,
      complete_endsWith .ok s _ rfl, ((regsKept_refl s).setHeader _).complete .ok, ⟨rfl, rfl⟩, fun _ _ => rfl, ⟨rfl, rfl⟩⟩
  · exact (execHdrBuild_badOperand s hc).trans (congrArg Outcome.next s.complete_cmdBadOperand)

theorem exec_hdrEnc (s : State) : exec .hdrEnc s = .next ((s.txPut (headerBytes s.header)).complete .ok) := rfl

/-- Settles O43: the laid-out header goes to TX, and the completion writes the report. -/
theorem hdrEncAppendsTheHeader : Obligations.HdrEncAppendsTheHeader := by
  unfold Obligations.HdrEncAppendsTheHeader
  refine ⟨decode_encode .hdrEnc, fun s => ⟨_, exec_hdrEnc s, rfl, ?_, complete_endsWith .ok s _ rfl,
    (s.txPut_regsKept _).complete .ok, ⟨rfl, rfl⟩, fun _ _ => rfl, rfl⟩⟩
  exact List.length_append.trans (congrArg (s.txq.length + ·) (headerBytes_length s.header))

/-! ### HDR.DEC (rules R181 to R185) -/

/-- Settles O47: a header that the validations pass comes back from the bytes that HDR.ENC appended. -/
theorem headerRoundTrip : Obligations.HeaderRoundTrip := by
  unfold Obligations.HeaderRoundTrip
  intro s u r hm hz ht hu
  refine ⟨_, headerBytes s.header, exec_hdrEnc s, rfl, headerBytes_length _, fun hq => ?_⟩
  have hv : headerError u.magic s.header = none := headerError_none _ _ (hm.trans hu.symm) ht
  have hr : u.rxq.drop Config.hdrLen = r := by rw [hq, List.drop_left' (headerBytes_length _)]
  exact ⟨_, execHdrDec_headerBytes u s.header r hq hz hv, rfl, rfl, rfl, rfl, rfl,
    (u.rxTake Config.hdrLen).latch_cmdLen_toNat s.header, hr⟩

/-- What a completion of HDR.DEC with 24 bytes read leaves, when RX is left with `q`. -/
theorem hdrDec_latches (s : State) (q : List Byte) (d : Bool) (c : ErrCode) (hl : 24 ≤ s.rxq.length)
    (h : execHdrDec s = .next ((({ s with rxq := q }.latch (headerOf s.rxq)).setDrainshort d).complete c)) :
    ∃ t, exec .hdrDec s = .next t ∧ t.rxq = q ∧ Latched s.rxq t ∧ t.drainshort = d ∧ EndsWith c s t ∧
      RegsKept [.hMagic, .hCmd, .hSize, .hCksum, .cmdLen] s t ∧ t.nats = s.nats ∧ DbufKeptFrom 0 s t ∧
      t.txq = s.txq := by
  have hlatched := State.latch_latched { s with rxq := q } s.rxq hl
  have hkept : RegsKept [] s { s with rxq := q } := ⟨fun _ _ _ => rfl, rfl, rfl, rfl, rfl⟩
  exact ⟨_, h, rfl, ⟨hlatched.magic, hlatched.cmd, hlatched.size, hlatched.cksum, hlatched.cmdLen⟩, rfl,
    complete_endsWith c s _ rfl, ((hkept.latch _).setDrainshort d).complete c, rfl, fun _ _ => rfl, rfl⟩

/-- Settles O44: each branch of the parser ends, or waits, as the model's lemma of that branch says. -/
theorem hdrDecFollowsTheContract : Obligations.HdrDecFollowsTheContract := by
  unfold Obligations.HdrDecFollowsTheContract
  refine ⟨decode_encode .hdrDec, fun s => ?_⟩
  simp only [← headerOf_size]
  have hvalid : 24 ≤ s.rxq.length → headerError s.magic (headerOf s.rxq) = failedValidation s.magic s.rxq :=
    headerError_headerOf s.magic s.rxq
  refine ⟨execHdrDec_waits s, fun hl he => ?_, fun hl hz => ?_, fun hl hz hv => ?_, fun e hl hz hv hd => ?_,
    fun e hl hz hv hd he => ?_, fun e hl hz hv hd he => ?_⟩
  · by_cases hq : s.rxq.length = 0
    · rw [if_pos hq]
      exact ⟨_, execHdrDec_eof s hq he, List.eq_nil_of_length_eq_zero hq, rfl, complete_endsWith .ioEof s _ rfl,
        ((regsKept_refl s).setDrainshort false).complete .ioEof, rfl, fun _ _ => rfl, rfl⟩
    · rw [if_neg hq]
      exact ⟨_, execHdrDec_short s hl hq he, rfl, rfl, complete_endsWith .ioShortRead s _ rfl,
        (s.rxClear_regsKept.setDrainshort false).complete .ioShortRead, rfl, fun _ _ => rfl, rfl⟩
  · exact hdrDec_latches s _ false .framePayloadTooLarge hl (execHdrDec_tooLarge s hl.not_gt hz)
  · exact hdrDec_latches s _ false .ok hl (execHdrDec_accepts s hl.not_gt hz.not_gt ((hvalid hl).trans hv))
  · exact hdrDec_latches s _ false e hl (execHdrDec_drains s hl.not_gt hz.not_gt e ((hvalid hl).trans hv) hd)
  · exact hdrDec_latches s [] true e hl
      (execHdrDec_drainShort s hl.not_gt hz.not_gt e ((hvalid hl).trans hv) hd.not_ge he)
  · exact execHdrDec_drainWaits s hl.not_gt hz.not_gt e ((hvalid hl).trans hv) hd.not_ge he

/-- HDR.DEC takes at most a header and the largest payload from the front of RX (rule R183). -/
theorem execHdrDec_drops (s t : State) (h : execHdrDec s = .next t) :
    ∃ n, n ≤ Config.hdrLen + Config.maxPayload ∧ t.rxq = s.rxq.drop n := by
  obtain ⟨-, -, rfl⟩ | ⟨-, -, rfl⟩ | ⟨-, hl, -, rfl⟩ | ⟨-, -, rfl⟩ | ⟨-, -, -, rfl⟩ |
    ⟨e, -, hz, -, ⟨-, rfl⟩ | ⟨hl, -, rfl⟩ | ⟨-, -, rfl⟩⟩ := execHdrDec_cases s t h
  · exact ⟨0, Nat.zero_le _, rfl⟩
  · exact ⟨0, Nat.zero_le _, rfl⟩
  · exact ⟨s.rxq.length, by omega, List.drop_length.symm⟩
  · exact ⟨Config.hdrLen, Nat.le_add_right _ _, rfl⟩
  · exact ⟨Config.hdrLen, Nat.le_add_right _ _, rfl⟩
  · exact ⟨Config.hdrLen + (headerOf s.rxq).size.toNat, by omega, rfl⟩
  · exact ⟨s.rxq.length, by omega, List.drop_length.symm⟩
  · exact ⟨0, Nat.zero_le _, rfl⟩

/-- HDR.DEC does not wait once a header and the largest payload are queued (rule R183). -/
theorem execHdrDec_completes (s t : State) (h : execHdrDec s = .next t)
    (hq : Config.hdrLen + Config.maxPayload ≤ s.rxq.length) : t.busy = false := by
  obtain ⟨hl, -, -⟩ | ⟨-, -, rfl⟩ | ⟨-, -, -, rfl⟩ | ⟨-, -, rfl⟩ | ⟨-, -, -, rfl⟩ |
    ⟨e, -, hz, -, ⟨-, rfl⟩ | ⟨-, -, rfl⟩ | ⟨hl, -, -⟩⟩ := execHdrDec_cases s t h
  · omega
  · rfl
  · rfl
  · rfl
  · rfl
  · rfl
  · rfl
  · omega

/-- Settles O45: the size bound comes before the drain, so it bounds what is dropped and what is waited for. -/
theorem hdrDecIsBounded : Obligations.HdrDecIsBounded := by
  unfold Obligations.HdrDecIsBounded
  refine ⟨execHdrDec_drops, fun s hq => ?_⟩
  obtain ⟨t, ht⟩ := execHdrDec_next s
  exact ⟨t, ht, execHdrDec_completes s t ht hq⟩

/-- Settles O46: with its payload queued, a header that fails a validation is dropped together with that payload. -/
theorem failedHeaderLeavesTheStreamAligned : Obligations.FailedHeaderLeavesTheStreamAligned := by
  unfold Obligations.FailedHeaderLeavesTheStreamAligned
  intro s t h p r hq hh hs hp ht hfail
  rw [List.append_assoc] at hq
  have hlen : 24 + p.length ≤ s.rxq.length := by
    rw [hq, List.length_append, List.length_append, hh]
    exact Nat.add_le_add_left (Nat.le_add_right _ _) 24
  have hl : ¬ s.rxq.length < Config.hdrLen := ((Nat.le_add_right 24 _).trans hlen).not_gt
  have hsize : (headerOf s.rxq).size.toNat = p.length := by
    rw [hq, headerOf_append h _ hh.ge, headerOf_size, hs]
  have hz : ¬ Config.maxPayload < (headerOf s.rxq).size.toNat := by rwa [hsize, Nat.not_lt]
  cases hv : headerError s.magic (headerOf s.rxq) with
  | none =>
    cases (execHdrDec_accepts s hl hz hv).symm.trans ht
    exact absurd hfail (not_or.mpr (by decide : ErrCode.ok.code ≠ 0x11 ∧ ErrCode.ok.code ≠ 0x13))
  | some e =>
    have hd : Config.hdrLen + (headerOf s.rxq).size.toNat ≤ s.rxq.length := by rwa [hsize]
    cases (execHdrDec_drains s hl hz e hv hd).symm.trans ht
    have hr : s.rxq.drop (Config.hdrLen + (headerOf s.rxq).size.toNat) = r := by
      rw [hsize, hq, ← List.drop_drop, List.drop_left' hh, List.drop_left]
    exact ⟨hr, rfl⟩

end Sys2Proof.Machine

/-! Payload transfer and the system commands (`45_body_system.md`): BODY.RD with too few bytes, BODY.RD and BODY.WR as
the two ends of one transfer, and what NOP and CLRERR report. -/

namespace Sys2Proof.Machine

open Sys2Proof Host

/-! ### BODY.RD (rule R196) -/

theorem State.complete_framePayloadTooLarge (s : State) :
    s.complete .framePayloadTooLarge = { s with err := 0x12, esticky := true, busy := false } := by
  have hsticky : (s.esticky || ErrCode.framePayloadTooLarge.setsSticky) = true := Bool.or_true _
  rw [State.complete, hsticky]
  rfl

section
variable (s : State) (hz : s.hSize.toNat ≤ Config.maxPayload) (hl : s.rxq.length < s.hSize.toNat)
include hz hl

/-- With too few bytes the outcome on RX is a short read, which end of stream decides (`20_memory.md` rule R53). -/
theorem execBodyRd_short : execBodyRd s =
    completeRead .short (fun b s => s.bodyStored b) (fun s => s.bodyLost s.hSize.toNat) s := by
  have hg : getBytes s.rxq s.hSize.toNat = .short := if_neg hl.not_ge
  rw [execBodyRd_reads s hz.not_gt, hg]

theorem execBodyRd_ended (he : s.rxEof = true) :
    execBodyRd s = .next ((s.bodyLost s.hSize.toNat).rxClear.complete .ioShortRead) :=
  (execBodyRd_short s hz hl).trans (completeRead_ended _ _ s he)

theorem execBodyRd_waits (he : s.rxEof = false) : execBodyRd s = .next s :=
  (execBodyRd_short s hz hl).trans (completeRead_waits _ _ s he)

end

/-- Settles O48: the bound is tested before RX; the bytes at its front are then a body and a rest, or too few. -/
theorem bodyRdMovesExactlyTheBody : Obligations.BodyRdMovesExactlyTheBody := by
  unfold Obligations.BodyRdMovesExactlyTheBody
  refine ⟨decode_encode .bodyRd, fun s => ⟨fun hz => ?_, fun hz hl => ?_, fun hz hl he => ?_, fun hz hl he => ?_⟩⟩
  · exact (execBodyRd_tooLarge s hz).trans (congrArg Outcome.next s.complete_framePayloadTooLarge)
  · obtain ⟨b, r, hq, hb⟩ : ∃ b r, s.rxq = b ++ r ∧ s.hSize.toNat = b.length :=
      ⟨_, _, (List.take_append_drop s.hSize.toNat s.rxq).symm, (List.length_take_of_le hl).symm⟩
    have hcap : b.length ≤ Config.dbufCap := hb.symm.trans_le hz
    rw [hb]
    refine ⟨_, execBodyRd_body s b r hq hb hcap, fun a ha => ?_, (s.rxTake b.length).bodyStored_above b,
      (s.rxTake b.length).bodyStored_dlen_toNat b hcap, rfl, complete_endsWith .ok s _ (by simp),
      ((s.rxTake_regsKept b.length).bodyStored b).complete .ok, ⟨by simp, by simp⟩, by simp⟩
    rw [hq, List.getElem?_append_left ha]
    exact (s.rxTake b.length).bodyStored_dbufByte b a ha
  · exact ⟨_, execBodyRd_ended s hz hl he, rfl, rfl, s.bodyLost_above _, complete_endsWith .ioShortRead s _ (by simp),
      ((regsKept_refl s).bodyLost _).rxClear.complete .ioShortRead, ⟨by simp, by simp⟩, by simp⟩
  · exact execBodyRd_waits s hz hl he

/-! ### BODY.WR (rules R198, R199) -/

/-- Settles O49: the valid content goes to TX, and the completion writes the report. -/
theorem bodyWrAppendsTheBody : Obligations.BodyWrAppendsTheBody := by
  unfold Obligations.BodyWrAppendsTheBody
  exact ⟨decode_encode .bodyWr, fun s hd => ⟨_, s.payload, execBodyWr_eq s hd, rfl, s.payload_length,
    s.memRead_getElem? _, complete_endsWith .ok s _ rfl, (s.txPut_regsKept _).complete .ok, ⟨rfl, rfl⟩,
    fun _ _ => rfl, rfl⟩⟩

/-- Settles O50: the sender's valid content is the body at the front of RX, and the receiver stores it. -/
theorem bodyRoundTrip : Obligations.BodyRoundTrip := by
  unfold Obligations.BodyRoundTrip
  intro s u r hd hu
  refine ⟨_, s.payload, execBodyWr_eq s hd, rfl, fun hq => ?_⟩
  have hlen : u.hSize.toNat = s.payload.length := hu.trans s.payload_length.symm
  refine ⟨_, execBodyRd_body u s.payload r hq hlen (s.payload_length.trans_le hd), rfl, ?_, ?_, fun a ha => ?_⟩
  · rw [State.complete_dlen, State.bodyStored_dlen, s.payload_length, BitVec.ofNat_toNat, BitVec.setWidth_eq]
  · rw [State.complete_rxq, State.bodyStored_rxq, State.rxTake_rxq, hq, List.drop_left]
  · have hstored := State.bodyStored_dbufByte (u.rxTake s.payload.length) _ a (ha.trans_eq s.payload_length.symm)
    exact Option.some.inj (hstored.symm.trans (s.memRead_getElem? _ a ha))

/-! ### NOP and CLRERR (rules R205, R206) -/

/-- The report of a success leaves ESTICKY as it was (`60_exceptions.md` rule R216). -/
theorem State.complete_ok (s : State) : s.complete .ok = { s with err := 0x00, busy := false } := by
  have hsticky : (s.esticky || ErrCode.ok.setsSticky) = s.esticky := Bool.or_false _
  rw [State.complete, hsticky]
  rfl

/-- Settles O51: NOP is a success and nothing else, CLRERR the same with ESTICKY cleared first. -/
theorem systemCommandsTouchStatusOnly : Obligations.SystemCommandsTouchStatusOnly := by
  unfold Obligations.SystemCommandsTouchStatusOnly
  exact ⟨decode_encode .nop, decode_encode .clrerr, fun s =>
    ⟨congrArg Outcome.next s.complete_ok, congrArg Outcome.next s.clearSticky.complete_ok⟩⟩

end Sys2Proof.Machine

/-! Completions and holds (`60_exceptions.md`): what an illegal word leaves, the codes each command ends with, the end
of every decode on an ended input, and the next state that every step has. -/

namespace Sys2Proof.Machine

open Sys2Proof Host

/-! ### An illegal word (rule R212) -/

theorem State.complete_cmdIllegal (s : State) :
    s.complete .cmdIllegal = { s with err := 0xF1, esticky := true, busy := false } := by
  have hsticky : (s.esticky || ErrCode.cmdIllegal.setsSticky) = true := Bool.or_true _
  rw [State.complete, hsticky]
  rfl

/-- Settles O2: the completion with CMD_ILLEGAL, which writes the report and nothing else. -/
theorem illegalWordOnlyReports : Obligations.IllegalWordOnlyReports := by
  unfold Obligations.IllegalWordOnlyReports
  exact fun s e hb hd => (engineAct_illegal s e hb hd).trans (congrArg Outcome.next s.complete_cmdIllegal)

/-! ### The codes of a command's row (rule R214) -/

/-- What rule R214 lets the command `i` do from the state `s`: a hold, if it reads RX, or a completion with a code of
its row. -/
inductive EndsInRow (i : Instr) (s : State) : State → Prop
  | holds (hr : readsRx i = true) : EndsInRow i s s
  /-- The operation that comes before the completion leaves ESTICKY as the report finds it. -/
  | completes (u : State) (c : ErrCode) (hc : c ∈ commandCodes i) (hu : u.esticky = (reportBase i s).esticky) :
      EndsInRow i s (u.complete c)

section
variable {s t : State}

theorem execVarintDec_endsInRow (h : execVarintDec s = .next t) : EndsInRow .varintDec s t := by
  obtain ⟨v, n, -, rfl⟩ | ⟨n, -, rfl⟩ | ⟨-, -, rfl⟩ | ⟨-, -, rfl⟩ := execVarintDec_cases s t h
  · exact .completes _ .ok (by decide) rfl
  · exact .completes _ .protoNoncanonicalVarint (by decide) rfl
  · exact .completes _ .ioShortRead (by decide) rfl
  · exact .holds rfl

/-- An end of stream inside a varstring leaves ESTICKY to the completion (`41_varstring.md` rule R119). -/
theorem varstrShort_esticky (s : State) : (varstrShort s).esticky = s.esticky := by
  obtain ⟨l, n, -, -, hv⟩ | ⟨-, hv⟩ := varstrShort_cases s <;> rw [hv]
  exact s.bodyLost_esticky l

theorem execVarstrDec_endsInRow (h : execVarstrDec s = .next t) : EndsInRow .varstrDec s t := by
  obtain ⟨b, n, -, rfl⟩ | ⟨c, n, -, hc, rfl⟩ | ⟨-, -, rfl⟩ | ⟨-, -, rfl⟩ := execVarstrDec_cases s t h
  · exact .completes _ .ok (by decide) rfl
  · have hrow : c ∈ commandCodes .varstrDec := by obtain rfl | rfl := hc <;> decide
    exact .completes _ c hrow rfl
  · exact .completes _ .ioShortRead (by decide) (varstrShort_esticky s)
  · exact .holds rfl

theorem execNetaddrDec_endsInRow (ts : Bool) (h : execNetaddrDec ts s = .next t) : EndsInRow (.netaddrDec ts) s t := by
  obtain ⟨a, n, -, rfl⟩ | ⟨-, -, rfl⟩ | ⟨-, -, rfl⟩ := execNetaddrDec_cases ts s t h
  · exact .completes _ .ok List.mem_cons_self rfl
  · exact .completes _ .ioShortRead (List.mem_cons_of_mem _ List.mem_cons_self) rfl
  · exact .holds rfl

/-- The codes of the two failed validations are in HDR.DEC's row (`44_header.md` rule R181). -/
theorem headerError_mem_commandCodes (magic : Bytes 4) (x : Header) (e : ErrCode) (he : headerError magic x = some e) :
    e ∈ commandCodes .hdrDec := by
  obtain rfl | rfl := headerError_some magic x e he <;> decide

theorem execHdrDec_endsInRow (h : execHdrDec s = .next t) : EndsInRow .hdrDec s t := by
  obtain ⟨-, -, rfl⟩ | ⟨-, -, rfl⟩ | ⟨-, -, -, rfl⟩ | ⟨-, -, rfl⟩ | ⟨-, -, -, rfl⟩ |
    ⟨e, -, -, he, ⟨-, rfl⟩ | ⟨-, -, rfl⟩ | ⟨-, -, rfl⟩⟩ := execHdrDec_cases s t h
  · exact .holds rfl
  · exact .completes _ .ioEof (by decide) rfl
  · exact .completes _ .ioShortRead (by decide) rfl
  · exact .completes _ .framePayloadTooLarge (by decide) rfl
  · exact .completes _ .ok (by decide) rfl
  · exact .completes _ e (headerError_mem_commandCodes _ _ e he) rfl
  · exact .completes _ e (headerError_mem_commandCodes _ _ e he) rfl
  · exact .holds rfl

theorem execBodyRd_endsInRow (h : execBodyRd s = .next t) : EndsInRow .bodyRd s t := by
  obtain ⟨-, rfl⟩ | ⟨-, -, rfl⟩ | ⟨-, -, -, rfl⟩ | ⟨-, -, -, rfl⟩ := execBodyRd_cases s t h
  · exact .completes _ .framePayloadTooLarge (by decide) rfl
  · exact .completes _ .ok (by decide) rfl
  · exact .completes _ .ioShortRead (by decide) rfl
  · exact .holds rfl

theorem execHdrBuild_endsInRow (h : execHdrBuild s = .next t) : EndsInRow .hdrBuild s t := by
  obtain ⟨-, rfl⟩ | ⟨-, -, rfl⟩ := execHdrBuild_cases s t h
  · exact .completes _ .cmdBadOperand (by decide) rfl
  · exact .completes _ .ok (by decide) rfl

theorem execCksumVfy_endsInRow (h : execCksumVfy s = .next t) : EndsInRow .cksumVfy s t := by
  obtain ⟨-, rfl⟩ := execCksumVfy_cases s t h
  split
  · exact .completes _ .ok (by decide) rfl
  · exact .completes _ .frameChecksumMismatch (by decide) rfl

theorem exec_endsInRow (i : Instr) (h : exec i s = .next t) : EndsInRow i s t := by
  cases i with
  | varintDec => exact execVarintDec_endsInRow h
  | varstrDec => exact execVarstrDec_endsInRow h
  | netaddrDec ts => exact execNetaddrDec_endsInRow ts h
  | hdrDec => exact execHdrDec_endsInRow h
  | bodyRd => exact execBodyRd_endsInRow h
  | hdrBuild => exact execHdrBuild_endsInRow h
  | cksumVfy => exact execCksumVfy_endsInRow h
  | nop | varintEnc | netaddrEnc | hdrEnc | clrerr => cases h; exact .completes _ .ok List.mem_cons_self rfl
  | varstrEnc => obtain ⟨-, rfl⟩ := execVarstrEnc_cases s t h; exact .completes _ .ok List.mem_cons_self rfl
  | bodyWr => obtain ⟨-, rfl⟩ := execBodyWr_cases s t h; exact .completes _ .ok List.mem_cons_self rfl
  | cksumGen => obtain ⟨-, rfl⟩ := execCksumGen_cases s t h; exact .completes _ .ok List.mem_cons_self rfl

end

/-- Settles O12: every command holds or completes in its row, and a completion reports its code. -/
theorem commandsEndWithTheirCodes : Obligations.CommandsEndWithTheirCodes := by
  unfold Obligations.CommandsEndWithTheirCodes
  refine ⟨fun i s t _ h => ?_, fun s e hb hd => ?_⟩
  · cases exec_endsInRow i h with
    | holds hr => exact .inl ⟨hr, rfl⟩
    | completes u c hc hu => exact .inr ⟨c, hc, complete_endsWith c _ u hu⟩
  · exact ⟨_, engineAct_illegal s e hb hd, complete_endsWith .cmdIllegal s s rfl⟩

/-! ### Decodes on an ended input (rules R220, R222) -/

/-- Settles O15: no byte is a short item for every decode, HDR.DEC apart, and BODY.RD of no bytes has its body. -/
theorem endedInputEndsEveryDecode : Obligations.EndedInputEndsEveryDecode := by
  unfold Obligations.EndedInputEndsEveryDecode
  intro s he hq
  have hnetaddr (t : Bool) :
      ∃ u, exec (.netaddrDec t) s = .next u ∧ u.rxq = [] ∧ EndsWith .ioShortRead s u := by
    have hl : s.rxq.length < timestampLen (hasTs t s.pver s.tsver) + 26 := by rw [hq]; exact Nat.succ_pos _
    exact ⟨_, exec_netaddrDec_ended s t _ rfl hl he, rfl, complete_endsWith .ioShortRead s _ rfl⟩
  refine ⟨?_, ?_, fun hpos hz => ?_, fun hz => ?_⟩
  · simp only [List.forall_mem_cons]
    refine ⟨?_, ?_, hnetaddr false, hnetaddr true, nofun⟩
    · exact ⟨_, exec_varintDec_ended s (by rw [hq]; rfl) he, rfl, complete_endsWith .ioShortRead s _ rfl⟩
    · exact ⟨_, exec_varstrDec_ended s (by rw [hq]; rfl) he, rfl,
        complete_endsWith .ioShortRead s _ (varstrShort_esticky s)⟩
  · exact ⟨_, execHdrDec_eof s (by rw [hq]; rfl) he, hq, complete_endsWith .ioEof s _ rfl⟩
  · have hl : s.rxq.length < s.hSize.toNat := by rwa [hq]
    exact ⟨_, execBodyRd_ended s hz hl he, rfl, complete_endsWith .ioShortRead s _ rfl⟩
  · have hb : s.hSize.toNat = 0 := by rw [hz]; rfl
    exact ⟨_, execBodyRd_body s [] [] hq hb (Nat.zero_le _), hq, rfl, complete_endsWith .ok s _ rfl⟩

/-! ### Every step has a next state (rule R220) -/

theorem execHdrBuild_next (s : State) (hd : s.dlen.toNat ≤ Config.dbufCap) : ∃ t, execHdrBuild s = .next t := by
  by_cases hc : Config.cmdLenMax < s.cmdLen.toNat
  · exact ⟨_, execHdrBuild_badOperand s hc⟩
  · exact ⟨_, execHdrBuild_eq s hd (Nat.not_lt.mp hc)⟩

/-- The bound on DLEN is all that a command needs (`10_state.md` rule R35). -/
theorem exec_next (i : Instr) (s : State) (hd : s.dlen.toNat ≤ Config.dbufCap) : ∃ t, exec i s = .next t := by
  cases i with
  | nop | varintEnc | netaddrEnc | hdrEnc | clrerr => exact ⟨_, rfl⟩
  | varintDec => rw [exec_varintDec]; exact completeRead_next _ _ _ s
  | varstrDec => rw [exec_varstrDec]; exact completeRead_next _ _ _ s
  | netaddrDec ts => rw [exec_netaddrDec]; exact completeRead_next _ _ _ s
  | varstrEnc => exact ⟨_, execVarstrEnc_eq s hd⟩
  | bodyWr => exact ⟨_, execBodyWr_eq s hd⟩
  | cksumGen => exact ⟨_, execCksumGen_eq s hd⟩
  | cksumVfy => exact ⟨_, execCksumVfy_eq s hd⟩
  | hdrBuild => exact execHdrBuild_next s hd
  | hdrDec => exact execHdrDec_next s
  | bodyRd => exact execBodyRd_next s

theorem engineAct_next (s : State) (hd : s.dlen.toNat ≤ Config.dbufCap) : ∃ t, engineAct s = .next t := by
  obtain ⟨-, ha⟩ | ⟨-, i, -, ha⟩ | ⟨-, -, ha⟩ := engineAct_cases s
  · exact ⟨_, ha⟩
  · rw [ha]; exact exec_next i s hd
  · exact ⟨_, ha⟩

/-- A host action is refused only for its width or alignment (`20_memory.md` rule R61). -/
theorem hostAct_next (a : HostAction) (s : State) (ha : (Turn.host a).withinSpec = true) :
    ∃ t, hostAct a s = .next t := by
  cases a with
  | busWrite width offset v => exact ⟨_, if_pos ha⟩
  | busRead width offset => exact ⟨_, if_pos ha⟩
  | _ => exact ⟨_, rfl⟩

/-- Settles O9: the invariant bounds DLEN for the engine's turn, and the host's is within the spec. -/
theorem noStepStopsTheBlock : Obligations.NoStepStopsTheBlock := by
  unfold Obligations.NoStepStopsTheBlock
  intro s hi hw
  obtain ⟨-, hs⟩ | ⟨a, rest, hsc, hs⟩ := step_cases s
  · rw [hs]; exact engineAct_next _ hi.dlen_le
  · rw [hs]; exact hostAct_next a _ (hw a rest hsc)

end Sys2Proof.Machine

/-! Reset and what a running command keeps from the host (`70_reset_and_hazards.md`). -/

namespace Sys2Proof.Machine

open Sys2Proof Host

/-! ### What the host can do while a command runs (rule R250) -/

theorem issue_busy (s : State) (w : Word) (h : s.busy = true) : s.issue w = s := whenIdle_busy s _ h

theorem writeReg_busy (s : State) (v : RegValue) (h : s.busy = true) : s.writeReg v = s := whenIdle_busy s _ h

theorem dbufStore_busy (s : State) (b : Byte) (h : s.busy = true) : s.dbufStore b = s := whenIdle_busy s _ h

/-- While BUSY = 1 a bus write can change the state at RXDATA and RXCTL alone. -/
theorem busStore_busy (s : State) (r : BusReg) (w : Word) (h : s.busy = true) (hx : r ≠ .rxdata) (hc : r ≠ .rxctl) :
    s.busStore r w = s := by
  cases r
  case rxdata => exact absurd rfl hx
  case rxctl => exact absurd rfl hc
  case status | ck | txdata | reserved => rfl
  case cmd => exact issue_busy s w h
  case ddata => exact dbufStore_busy s _ h
  all_goals exact writeReg_busy s _ h

/-- DDATA is read at its offset and by name alike. -/
theorem hostAct_ddata (s : State) (act : HostAction) (h : act ∈ [HostAction.busRead 4 0x64, .dbufRead]) :
    hostAct act s = .next (s.busRead .ddata) := by
  obtain rfl | rfl : act = .busRead 4 0x64 ∨ act = .dbufRead := by simpa using h
  · exact hostAct_busRead s 0x64 rfl
  · rfl

/-- While BUSY = 1 a read of DDATA returns a free byte and uses up its draw, and that is all (rule R250, U3). -/
theorem busRead_ddata_busy (s : State) (h : s.busy = true) :
    s.busRead .ddata = { s.useDraw with hostData := .word ((Config.freeByte s.nextDraw 0).setWidth 32) } := by
  simp [State.busRead, State.busReadEffect, State.dbufReadEffect, State.busWord, dDataByte, h]

/-- A push does not look at BUSY (`10_state.md` rule R40). -/
theorem rxPush_withBusy (s : State) (busy : Bool) (b : Byte) :
    ({ s with busy := busy } : State).rxPush b = { s.rxPush b with busy := busy } := by
  unfold State.rxPush
  split <;> rfl

/-- Settles O54: each guarded write is dropped, a busy DDATA read spends a draw, and no stream action sees BUSY. -/
theorem writesWhileBusyAreIgnored : Obligations.WritesWhileBusyAreIgnored := by
  unfold Obligations.WritesWhileBusyAreIgnored
  refine ⟨fun s v b w r hb => ?_, fun s hb act ha => ?_, fun s b => ⟨?_, rfl, .word (txDataWord s), rfl, rfl⟩⟩
  · exact ⟨congrArg Outcome.next (writeReg_busy s v hb), congrArg Outcome.next (dbufStore_busy s b hb),
      congrArg Outcome.next (issue_busy s w hb), busStore_busy s r w hb⟩
  · exact ⟨_, (hostAct_ddata s act ha).trans (congrArg Outcome.next (busRead_ddata_busy s hb)), rfl⟩
  · exact congrArg Outcome.next (rxPush_withBusy s true b)

/-! ### Reset (rule R240) -/

/-- After reset nothing of DBUF is written, so each byte is one of the new draw (U1). -/
theorem resetBlock_dbufByte (s : State) (a : Nat) : s.resetBlock.dbufByte a = Config.freeByte s.nextDraw a := rfl

/-- Settles O6: `resetBlock` is the reset state but for the host's fields and the draw. -/
theorem resetPutsEveryElement : Obligations.ResetPutsEveryElement := by
  unfold Obligations.ResetPutsEveryElement
  intro s
  have hz (n : Nat) : (Vector.replicate n (0 : Byte)).toList = List.replicate n 0 := Vector.toList_replicate
  exact ⟨s.resetBlock, rfl, rfl, rfl, rfl, rfl, rfl, rfl, rfl, hz 4, rfl, rfl, rfl, rfl, rfl, hz 16, rfl, hz 4, hz 12,
    rfl, hz 4, rfl, hz 4, rfl, rfl, rfl, rfl, resetBlock_dbufByte s, rfl, rfl, rfl, Nat.lt_succ_self _, rfl⟩

end Sys2Proof.Machine
